-- ==== Sys2Proof/Word.lean ====
section
/-! DEFINITION. The two word types of the block: bytes and 16-bit fields (00_scope.md R5, R6). -/

namespace Sys2Proof

/-- An unsigned 8-bit value; the bus and every 8-bit register (00_scope.md R5, R6). -/
abbrev Byte := BitVec 8

/-- A 16-bit result field (00_scope.md R5). -/
abbrev Half := BitVec 16

end Sys2Proof
end

