-- ==== Sys2Proof/Syntax.lean ====
section
/-! DEFINITION. The block's operations, one constructor per row of spec/opcode_table.json, and the names
under which the decoder rejects a command byte. -/

namespace Sys2Proof

/-- The five operations a command byte selects (30_encoding.md R42). -/
inductive Instr where
  /-- CKGEN: generate the checksum of a 9-byte command frame (40_checksum.md R52). -/
  | ckgen
  /-- VALIDATE L / VALIDATE L, H: `elen` is the expected frame length ELEN, `hen` the header-check
  enable HEN (30_encoding.md R43, 40_checksum.md R53). -/
  | validate (elen : BitVec 4) (hen : Bool)
  /-- PCOMB: validate and parse a CombinedDataReply (41_frame_parse.md R59). -/
  | pcomb
  /-- PSTAT: validate and parse a StatusReply (41_frame_parse.md R60). -/
  | pstat
  /-- PCONF: check a ConfirmationReply (41_frame_parse.md R62). -/
  | pconf
deriving DecidableEq, Repr

/-- Why a command byte encodes no operation: the three groups of illegal bytes of 30_encoding.md R44. -/
inductive IllegalReason where
  /-- OP is 0, 6 or 7. -/
  | unassignedOp
  /-- OP is 1, 3, 4 or 5 and a bit of v[7:3] is set. -/
  | operandBitsSet
  /-- OP is 2 and ELEN is 0, 1, 14 or 15. -/
  | illegalLength
deriving DecidableEq, Repr

end Sys2Proof
end

