-- ==== Sys2Proof/WellFormed.lean ====
section
/-! DEFINITION. Which instructions have an encoding: VALIDATE's length must be 2 to 13 (30_encoding.md R42, R43). -/

namespace Sys2Proof

/-- The legal expected lengths of VALIDATE: 2 to 13 (30_encoding.md R43). -/
def legalLength (elen : BitVec 4) : Bool := 2 ≤ elen.toNat && elen.toNat ≤ 13

/-- The operations without operands always have an encoding; VALIDATE has one for a legal length only. -/
def Instr.wf : Instr → Bool
  | .ckgen => true
  | .validate elen _ => legalLength elen
  | .pcomb => true
  | .pstat => true
  | .pconf => true

/-- `Instr.wf` as a proposition. -/
abbrev Instr.WellFormed (i : Instr) : Prop := i.wf = true

end Sys2Proof
end

