-- ==== Sys2Proof/Decode.lean ====
section
/-! DEFINITION. The command byte: its fields, the total decoder, and the encoder written from the same
format (30_encoding.md R41 to R45). -/

namespace Sys2Proof

/-- OP, bits [2:0] of a command byte (30_encoding.md R41). -/
def opField (v : Byte) : BitVec 3 := v.extractLsb' 0 3

/-- HEN, bit 3 of a command byte (30_encoding.md R41). -/
def henField (v : Byte) : Bool := v.getLsbD 3

/-- ELEN, bits [7:4] of a command byte (30_encoding.md R41). -/
def elenField (v : Byte) : BitVec 4 := v.extractLsb' 4 4

/-- Bits [7:3], which must be 0 for every operation but VALIDATE (30_encoding.md R42). -/
def operandBits (v : Byte) : BitVec 5 := v.extractLsb' 3 5

/-- The values of ELEN that VALIDATE has an encoding for: 2 to 13 (30_encoding.md R42, R43). -/
def elenLegal (elen : BitVec 4) : Bool := 2 ≤ elen.toNat && elen.toNat ≤ 13

/-- An operation without operands: legal when v[7:3] = 0 (30_encoding.md R42). -/
def decodePlain (i : Instr) (v : Byte) : Except IllegalReason Instr :=
  if operandBits v = 0 then .ok i else .error .operandBitsSet

/-- VALIDATE: legal when ELEN is 2 to 13, HEN either (30_encoding.md R42). -/
def decodeValidate (v : Byte) : Except IllegalReason Instr :=
  if elenLegal (elenField v) then .ok (.validate (elenField v) (henField v)) else .error .illegalLength

/-- The operation map of 30_encoding.md R42; a byte that matches no row is rejected by name (R44). -/
def decode (v : Byte) : Except IllegalReason Instr :=
  match (opField v).toNat with
  | 1 => decodePlain .ckgen v
  | 2 => decodeValidate v
  | 3 => decodePlain .pcomb v
  | 4 => decodePlain .pstat v
  | 5 => decodePlain .pconf v
  | _ => .error .unassignedOp

/-- A command byte from its fields, ELEN high, then HEN, then OP (30_encoding.md R41). -/
def packCommand (op : BitVec 3) (hen : Bool) (elen : BitVec 4) : Byte :=
  elen ++ BitVec.ofBool hen ++ op

/-- The command byte of an instruction (30_encoding.md R42, R46). -/
def encode : Instr → Byte
  | .ckgen => packCommand 1 false 0
  | .validate elen hen => packCommand 2 hen elen
  | .pcomb => packCommand 3 false 0
  | .pstat => packCommand 4 false 0
  | .pconf => packCommand 5 false 0

/-- The command byte that a table word of `nbits` bits stands for: a command is exactly one byte
(30_encoding.md R45), its bits numbered as the opcode table numbers them (log entry 11). -/
def tableByte (nbits w : Nat) : Byte := BitVec.ofNat 8 (w % 2 ^ nbits)

/-- The instruction the decoder reads from an opcode-table word. -/
def decodeTableWord (nbits w : Nat) : Option Instr :=
  match decode (tableByte nbits w) with
  | .ok i => some i
  | .error _ => none

end Sys2Proof
end

