-- ==== Sys2Proof/Machine/State.lean ====
section
/-! DEFINITION. The state of one block instance: the registers of 10_state.md R11, the host's coming bus
cycles and the read-data port; the reasons a step can stop; the reset state (70_reset_and_hazards.md R77). -/

namespace Sys2Proof.Machine

/-- No step of the block stops with a fault: a transaction never fails (20_memory.md R30, R31) and a failing
operation is a next state with a code in STATUS.ERR (60_exceptions.md R65, R66). So no one raises one and
the type has no constructor. -/
inductive Fault
deriving DecidableEq, Repr

/-- Why a step has no meaning in the model. -/
inductive Refusal where
  /-- Raised by an arm of exec whose instruction has no meaning yet; no arm does. Safe. -/
  | notModelled (mnemonic : String)
  /-- Raised by a bus cycle with wr and rd asserted together and rst low: outside the interface contract,
  "a model refuses it" (20_memory.md R25, R40). Safe. -/
  | bothStrobes
deriving DecidableEq, Repr

/-- What the host drives on the input ports in one step (20_memory.md R25; clk has no counterpart,
70_reset_and_hazards.md R84). -/
structure BusCycle where
  rst : Bool
  wr : Bool
  rd : Bool
  addr : Byte
  wdata : Byte
deriving DecidableEq, Repr

/-- The registers of 10_state.md R11 (FBUF_SIZE is 13, 00_scope.md R5), then the model's own two fields:
`host`, the cycles the host drives next, oldest first (log entry 1), and `rdata`, what the read-data port
carried in the latest step (log entry 2). -/
structure State where
  fbuf : Vector Byte 13
  flen : Byte
  hdr0 : Byte
  hdr1 : Byte
  cmd : Byte
  status : Byte
  calcReg : Byte
  gas : Half
  temp : Half
  hum : Half
  led : Byte
  host : List BusCycle
  rdata : Option Byte
deriving DecidableEq, Repr

/-- The state right after reset: every register 0 (70_reset_and_hazards.md R77), nothing driven yet. -/
def State.reset : State where
  fbuf := Vector.replicate 13 0x00
  flen := 0x00
  hdr0 := 0x00
  hdr1 := 0x00
  cmd := 0x00
  status := 0x00
  calcReg := 0x00
  gas := 0x0000
  temp := 0x0000
  hum := 0x0000
  led := 0x00
  host := []
  rdata := none

end Sys2Proof.Machine
end

