-- ==== Sys2Proof/Machine/Flags.lean ====
section
/-! DEFINITION. STATUS.ERR, the block's only flag (10_state.md R16, R22): its codes, how an operation writes
it and how the host reads it; and the LED register's view, which has reserved bits too (R21). -/

namespace Sys2Proof.Machine

/-- The outcomes of an operation (60_exceptions.md R65). -/
inductive ErrCode where
  | none
  | length
  | header
  | checksum
  | unexpected
  | illegalOp
deriving DecidableEq, Repr

/-- The number of an outcome (60_exceptions.md R65); 6 and 7 are never written. -/
def errBits : ErrCode → BitVec 3
  | .none => 0
  | .length => 1
  | .header => 2
  | .checksum => 3
  | .unexpected => 4
  | .illegalOp => 5

/-- `STATUS.ERR <- code`; bits [7:3] are hard-wired to 0 (10_state.md R16). -/
def setErr (e : ErrCode) (s : State) : State := { s with status := 0#5 ++ errBits e }

/-- ERR, bits [2:0] of STATUS (10_state.md R16). -/
def errField (s : State) : BitVec 3 := s.status.extractLsb' 0 3

/-- STATUS as the host reads it: [7:3] read as 0 (10_state.md R16, 20_memory.md R30; log entry 13). -/
def statusView (s : State) : Byte := 0#5 ++ errField s

/-- STATE, bits [1:0] of LED (10_state.md R21). -/
def ledField (s : State) : BitVec 2 := s.led.extractLsb' 0 2

/-- LED as the host reads it: [7:2] read as 0 (10_state.md R21, 20_memory.md R30; log entry 13). -/
def ledView (s : State) : Byte := 0#6 ++ ledField s

end Sys2Proof.Machine
end

