-- ==== Sys2Proof/Machine/Operands.lean ====
section
/-! DEFINITION. What the operations read: frame bytes, checksum ranges, big-endian fields, the length and
header comparisons, and the constants of the three reply shapes (00_scope.md R8, 40_checksum.md R49,
41_frame_parse.md R56 to R62). -/

namespace Sys2Proof.Machine

/-- `FBUF[i]` (00_scope.md R8). Cells at 13 and beyond do not exist and no operation reads one
(10_state.md R12); the function is total by answering 0x00 there (log entry 7). -/
def fbufAt (s : State) (i : Nat) : Byte := s.fbuf[i]?.getD 0x00

/-- The exact integer sum of the `n` frame bytes from offset `a` on. -/
def sumFrom (s : State) (a : Nat) : Nat → Nat
  | 0 => 0
  | n + 1 => sumFrom s a n + (fbufAt s (a + n)).toNat

/-- `sum8(a, b)`: bytes a to b inclusive, modulo 256, and 0 when b < a (40_checksum.md R49). -/
def sum8 (s : State) (a b : Nat) : Nat := sumFrom s a (b + 1 - a) % 256

/-- `ck(a, b) = (0x100 - sum8(a, b)) mod 0x100` (40_checksum.md R49). -/
def ck (s : State) (a b : Nat) : Byte := BitVec.ofNat 8 ((0x100 - sum8 s a b) % 0x100)

/-- The checksum a frame of length `len` must carry: bytes 1 to len-2 (40_checksum.md R50). -/
def frameCk (s : State) (len : Nat) : Byte := ck s 1 (len - 2)

/-- `be16(i)`: the byte at the lower offset is the more significant (41_frame_parse.md R56). -/
def be16 (s : State) (i : Nat) : Half := fbufAt s i ++ fbufAt s (i + 1)

/-- `FLEN = len` (10_state.md R13). -/
def lengthIs (len : Nat) (s : State) : Bool := s.flen.toNat == len

/-- Frame bytes 0 and 1 are `h0` and `h1`. -/
def headIs (h0 h1 : Byte) (s : State) : Bool := fbufAt s 0 == h0 && fbufAt s 1 == h1

/-- ELEN read as the expected length, unscaled (30_encoding.md R43). -/
def expectedLen (elen : BitVec 4) : Nat := elen.toNat

/-- Offset of a command frame's checksum byte; bytes 1 to 7, the ones before it, are covered (40_checksum.md R52). -/
def commandCkOffset : Nat := 8

/-- Length of a CombinedDataReply (41_frame_parse.md R57). -/
def combinedLen : Nat := 13

/-- Header byte 0 of a CombinedDataReply (41_frame_parse.md R57). -/
def combinedHdr0 : Byte := 0xFF

/-- Header byte 1 of a CombinedDataReply (41_frame_parse.md R57). -/
def combinedHdr1 : Byte := 0x87

/-- Length of a StatusReply (41_frame_parse.md R60). -/
def statusLen : Nat := 9

/-- Length of a ConfirmationReply (41_frame_parse.md R62). -/
def confirmLen : Nat := 2

/-- First byte of "OK" (41_frame_parse.md R62). -/
def confirmByte0 : Byte := 0x4F

/-- Second byte of "OK" (41_frame_parse.md R62). -/
def confirmByte1 : Byte := 0x4B

/-- `ledcode(b)`: 1 On, 0 Off, 2 Unknown; bits [7:2] are 0 (41_frame_parse.md R61). -/
def ledCode (b : Byte) : Byte := if b = 0x01 then 0x01 else if b = 0x00 then 0x00 else 0x02

end Sys2Proof.Machine
end

