-- ==== Sys2Proof/Machine/Ops.lean ====
section
/-! DEFINITION. The named operations: reporting an error and success, one check of an operation, the checksum
stage, the register bus's reads and writes, reset, and the host's next cycle. The block has no trap entry and
no trap return (60_exceptions.md R69, R70): `raiseError` is the whole of reporting a failure (R66). -/

namespace Sys2Proof.Machine

/-- `raise FrameError(code)`: `STATUS.ERR <- code`, and the operation ends (60_exceptions.md R66). -/
def raiseError (e : ErrCode) (s : State) : State := setErr e s

/-- `done`: success, `STATUS.ERR <- 0` (00_scope.md R8). -/
def done (s : State) : State := setErr .none s

/-- One check of an operation: if it fails, the operation ends there with `e`; if it passes, the rest runs
(60_exceptions.md R66, R67). -/
def require (ok : Bool) (e : ErrCode) (rest : State → State) (s : State) : State :=
  if ok then rest s else raiseError e s

/-- `CALC <- c`. -/
def setCalc (c : Byte) (s : State) : State := { s with calcReg := c }

/-- `FBUF[i] <- v`; there is no cell at 13 or beyond (10_state.md R12). -/
def setFbuf (i : Nat) (v : Byte) (s : State) : State := { s with fbuf := s.fbuf.setIfInBounds i v }

/-- The result registers of a combined-data decode (41_frame_parse.md R58). -/
def setCombined (g t h : Half) (s : State) : State := { s with gas := g, temp := t, hum := h }

/-- `LED <- v`. -/
def setLed (v : Byte) (s : State) : State := { s with led := v }

/-- The checksum stage for length `len`: CALC is written whether or not the frame matches, then the last
byte is compared (40_checksum.md R51). -/
def checksumStage (len : Nat) (rest : State → State) (s : State) : State :=
  require (fbufAt s (len - 1) == frameCk s len) .checksum rest (setCalc (frameCk s len) s)

/-- The ILLEGAL_OP outcome: STATUS.ERR is 5 and nothing else changes (30_encoding.md R44). -/
def illegalOp (s : State) : State := raiseError .illegalOp s

/-- High byte of a 16-bit result, at the lower address (20_memory.md R29). -/
def hiByte (h : Half) : Byte := h.extractLsb' 8 8

/-- Low byte of a 16-bit result (20_memory.md R29). -/
def loByte (h : Half) : Byte := h.extractLsb' 0 8

/-- The value a read of address `a` returns (20_memory.md R26, R27, R30). -/
def busRead (a : Byte) (s : State) : Byte :=
  if a.toNat < 13 then fbufAt s a.toNat else
  match a.toNat with
  | 0x10 => s.flen
  | 0x11 => s.hdr0
  | 0x12 => s.hdr1
  | 0x13 => s.cmd
  | 0x14 => statusView s
  | 0x15 => s.calcReg
  | 0x16 => hiByte s.gas
  | 0x17 => loByte s.gas
  | 0x18 => hiByte s.temp
  | 0x19 => loByte s.temp
  | 0x1A => hiByte s.hum
  | 0x1B => loByte s.hum
  | 0x1C => ledView s
  | _ => 0x00

/-- The address of CMD, the one address whose write has a side effect (20_memory.md R32). -/
def cmdAddr : Byte := 0x13

/-- A write to any address but CMD: FBUF, FLEN, HDR0 and HDR1 are stored, a write to a read-only register
or a reserved address is ignored (20_memory.md R27, R31). -/
def storeReg (a v : Byte) (s : State) : State :=
  if a.toNat < 13 then setFbuf a.toNat v s else
  match a.toNat with
  | 0x10 => { s with flen := v }
  | 0x11 => { s with hdr0 := v }
  | 0x12 => { s with hdr1 := v }
  | _ => s

/-- The first half of a CMD write: the byte is stored (20_memory.md R32). -/
def storeCmd (v : Byte) (s : State) : State := { s with cmd := v }

/-- A read puts the addressed byte on the read-data port and changes no register (20_memory.md R30). -/
def driveRdata (a : Byte) (s : State) : State := { s with rdata := some (busRead a s) }

/-- Reset: every register to its reset value, whatever the state before it, and no operation performed
(70_reset_and_hazards.md R77). What the host will drive next is not the block's state and stays (log entry 5). -/
def resetBlock (s : State) : State := { State.reset with host := s.host }

/-- A write of `v` to `a` (20_memory.md R25). -/
def writeCycle (a v : Byte) : BusCycle := ⟨false, true, false, a, v⟩

/-- A read of `a` (20_memory.md R25). -/
def readCycle (a : Byte) : BusCycle := ⟨false, false, true, a, 0x00⟩

/-- A cycle with rst asserted (20_memory.md R25, 70_reset_and_hazards.md R77). -/
def resetCycle : BusCycle := ⟨true, false, false, 0x00, 0x00⟩

/-- A cycle with no strobe: no transaction (log entry 3). -/
def idleCycle : BusCycle := ⟨false, false, false, 0x00, 0x00⟩

/-- The cycle the host drives in this step; none is left when the list is empty, and then no strobe is
asserted (20_memory.md R35; log entries 1 and 3). -/
def currentCycle (s : State) : BusCycle := s.host.headD idleCycle

/-- The state in which the current cycle is served: the cycle is taken from the list and the read-data port
carries nothing yet (log entry 2). -/
def beginCycle (s : State) : State := { s with host := s.host.tail, rdata := none }

/-- The host drives `c` first and then what it would have driven. -/
def driveFirst (c : BusCycle) (s : State) : State := { s with host := c :: s.host }

end Sys2Proof.Machine
end

