-- ==== Sys2Proof/Machine/Checksum.lean ====
section
/-! DEFINITION. The checksum unit: CKGEN and VALIDATE (40_checksum.md R52, R53). -/

namespace Sys2Proof.Machine

/-- CKGEN: `FBUF[8] <- c; CALC <- c; done` with `c = ck(1, 7)` (40_checksum.md R52). -/
def execCkgen (s : State) : Host.Outcome State Fault Refusal :=
  let c := ck s 1 (commandCkOffset - 1)
  .next (done (setCalc c (setFbuf commandCkOffset c s)))

/-- The body of VALIDATE for a legal length: LENGTH, then HEADER when HEN is 1, then the checksum stage
(40_checksum.md R53, 60_exceptions.md R67). -/
def validateFrame (len : Nat) (hen : Bool) (s : State) : State :=
  require (lengthIs len s) .length
    (require (!hen || headIs s.hdr0 s.hdr1 s) .header (checksumStage len done)) s

/-- VALIDATE (40_checksum.md R53). A length outside 2 to 13 is no VALIDATE but ILLEGAL_OP (30_encoding.md
R44); the decoder never yields one (log entry 6). -/
def execValidate (elen : BitVec 4) (hen : Bool) (s : State) : Host.Outcome State Fault Refusal :=
  .next (if elenLegal elen then validateFrame (expectedLen elen) hen s else illegalOp s)

end Sys2Proof.Machine
end

