-- ==== Sys2Proof/Machine/Parser.lean ====
section
/-! DEFINITION. The frame parser: PCOMB, PSTAT and PCONF (41_frame_parse.md R59, R60, R62). -/

namespace Sys2Proof.Machine

/-- The decode of a combined-data frame: gas at 2, temperature at 8, humidity at 10 (41_frame_parse.md R58). -/
def decodeCombined (s : State) : State := setCombined (be16 s 2) (be16 s 8) (be16 s 10) s

/-- PCOMB: length 13, header FF 87, checksum stage, then the three fields (41_frame_parse.md R59). -/
def execPcomb (s : State) : Host.Outcome State Fault Refusal :=
  .next (require (lengthIs combinedLen s) .length
    (require (headIs combinedHdr0 combinedHdr1 s) .header
      (checksumStage combinedLen (fun t => done (decodeCombined t)))) s)

/-- PSTAT: length 9, checksum stage, then the LED code of byte 2; no header check (41_frame_parse.md R60). -/
def execPstat (s : State) : Host.Outcome State Fault Refusal :=
  .next (require (lengthIs statusLen s) .length
    (checksumStage statusLen (fun t => done (setLed (ledCode (fbufAt t 2)) t))) s)

/-- PCONF: length 2, then the exact bytes 4F 4B; no checksum (41_frame_parse.md R62). -/
def execPconf (s : State) : Host.Outcome State Fault Refusal :=
  .next (require (lengthIs confirmLen s) .length
    (require (headIs confirmByte0 confirmByte1 s) .unexpected done) s)

end Sys2Proof.Machine
end

