-- ==== Sys2Proof/Machine/Dispatch.lean ====
section
/-! DEFINITION. One arm per operation (30_encoding.md R42). -/

namespace Sys2Proof.Machine

def exec (i : Instr) (s : State) : Host.Outcome State Fault Refusal :=
  match i with
  | .ckgen => Sys2Proof.Machine.execCkgen s
  | .validate elen hen => Sys2Proof.Machine.execValidate elen hen s
  | .pcomb => Sys2Proof.Machine.execPcomb s
  | .pstat => Sys2Proof.Machine.execPstat s
  | .pconf => Sys2Proof.Machine.execPconf s

end Sys2Proof.Machine
end

