-- ==== Sys2Proof/Machine/Bus.lean ====
section
/-! DEFINITION. One bus cycle of the block: reset, write (with the operation a CMD write performs), read, or
no transaction (20_memory.md R25, R30 to R32). -/

namespace Sys2Proof.Machine

/-- A write of `v` to CMD, in one atomic step: store it, decode it, run the operation to its end, or take the
ILLEGAL_OP outcome (20_memory.md R32, 30_encoding.md R44). -/
def cmdWrite (v : Byte) (s : State) : Host.Outcome State Fault Refusal :=
  match decode v with
  | .ok i => exec i (storeCmd v s)
  | .error _ => .next (illegalOp (storeCmd v s))

/-- WR (20_memory.md R31). -/
def busWrite (a v : Byte) (s : State) : Host.Outcome State Fault Refusal :=
  if a = cmdAddr then cmdWrite v s else .next (storeReg a v s)

/-- One cycle with the ports as `c` drives them. With rst asserted no transaction is performed
(70_reset_and_hazards.md R77; log entry 4); wr and rd together are refused (20_memory.md R25, R40). -/
def busCycle (c : BusCycle) (s : State) : Host.Outcome State Fault Refusal :=
  if c.rst then .next (resetBlock s)
  else if c.wr && c.rd then .refused .bothStrobes
  else if c.wr then busWrite c.addr c.wdata s
  else if c.rd then .next (driveRdata c.addr s)
  else .next s

/-- The cycle in which the host writes the opcode-table word `w` to CMD (30_encoding.md R47). -/
def tableCycle (nbits w : Nat) : BusCycle := writeCycle cmdAddr (tableByte nbits w)

end Sys2Proof.Machine
end

