-- ==== Sys2Proof/Machine/Step.lean ====
section
/-! DEFINITION. One step: the host's next bus cycle is served (20_memory.md R25, R35). -/

namespace Sys2Proof.Machine

/-- One step of the block: one transaction or one reset, in the order the host issues them (20_memory.md R35). -/
def step (s : State) : Host.Outcome State Fault Refusal := busCycle (currentCycle s) (beginCycle s)

/-- `s` with a CMD write of the word put in front of what the host drives, so that the very next step runs
that operation (log entry 1). -/
def State.withFetchWord (s : State) (nbits w : Nat) : State := driveFirst (tableCycle nbits w) s

end Sys2Proof.Machine
end

