-- ==== Sys2Proof/Machine/Assembler.lean ====
section
/-! DEFINITION. The host's assembly syntax and its expansion to bus transactions (00_scope.md R9,
30_encoding.md R46, R47). -/

namespace Sys2Proof.Machine

/-- One line of a host program (30_encoding.md R46, R47). -/
inductive AsmLine where
  | wr (a v : Byte)
  | rd (a : Byte)
  | ckgen
  /-- `VALIDATE len` and, with `hen`, `VALIDATE len, H`. -/
  | validate (len : Nat) (hen : Bool)
  | pcomb
  | pstat
  | pconf
  /-- `.cmd v`: a raw command byte. -/
  | rawCmd (v : Byte)
  | frame (bytes : List Byte)
  | setHdr (h0 h1 : Byte)
  | rd16 (a : Byte)
  | rdStat
deriving DecidableEq, Repr

/-- Why the assembler refuses a line. -/
inductive AsmError where
  /-- VALIDATE with a length outside 2..13 (30_encoding.md R46). -/
  | validateLength
  /-- FRAME with more than 13 bytes (30_encoding.md R47). -/
  | frameTooLong
  /-- RD16 at another address than 0x16, 0x18 or 0x1A (30_encoding.md R47). -/
  | rd16Address
deriving DecidableEq, Repr

/-- The write of a command byte to CMD (30_encoding.md R47). -/
def commandCycles (i : Instr) : List BusCycle := [writeCycle cmdAddr (encode i)]

/-- The writes of consecutive bytes from address `a` on. -/
def writesFrom (a : Nat) : List Byte → List BusCycle
  | [] => []
  | b :: bs => writeCycle (BitVec.ofNat 8 a) b :: writesFrom (a + 1) bs

/-- `FRAME b0, ..., b(n-1)`: the bytes, then FLEN (30_encoding.md R47; no byte at all, log entry 12). -/
def frameCycles (bytes : List Byte) : List BusCycle :=
  writesFrom 0 bytes ++ [writeCycle 0x10 (BitVec.ofNat 8 bytes.length)]

/-- The bus transactions of one line (30_encoding.md R46, R47). -/
def assembleLine : AsmLine → Except AsmError (List BusCycle)
  | .wr a v => .ok [writeCycle a v]
  | .rd a => .ok [readCycle a]
  | .ckgen => .ok (commandCycles .ckgen)
  | .validate len hen =>
    if 2 ≤ len ∧ len ≤ 13 then .ok (commandCycles (.validate (BitVec.ofNat 4 len) hen))
    else .error .validateLength
  | .pcomb => .ok (commandCycles .pcomb)
  | .pstat => .ok (commandCycles .pstat)
  | .pconf => .ok (commandCycles .pconf)
  | .rawCmd v => .ok [writeCycle cmdAddr v]
  | .frame bytes =>
    if bytes.length ≤ 13 then .ok (frameCycles bytes) else .error .frameTooLong
  | .setHdr h0 h1 => .ok [writeCycle 0x11 h0, writeCycle 0x12 h1]
  | .rd16 a =>
    if a = 0x16 ∨ a = 0x18 ∨ a = 0x1A then .ok [readCycle a, readCycle (a + 1)] else .error .rd16Address
  | .rdStat => .ok [readCycle 0x14]

/-- A host program: the lines' transactions in order, or the first refusal (30_encoding.md R46). -/
def assemble : List AsmLine → Except AsmError (List BusCycle)
  | [] => .ok []
  | l :: ls =>
    match assembleLine l with
    | .error e => .error e
    | .ok cs =>
      match assemble ls with
      | .error e => .error e
      | .ok rest => .ok (cs ++ rest)

end Sys2Proof.Machine
end

