-- ==== Sys2Proof/Machine/Views.lean ====
section
/-! DEFINITION. The host's reading of the raw results; the block performs no conversion
(41_frame_parse.md R56, R63). -/

namespace Sys2Proof.Machine

/-- The LED states of the document (10_state.md R21). -/
inductive LedState where
  | off
  | on
  | unknown
deriving DecidableEq, Repr

/-- The state the LED register's code names; code 3 is never written (10_state.md R21). -/
def ledState (s : State) : Option LedState :=
  match (ledField s).toNat with
  | 0 => some .off
  | 1 => some .on
  | 2 => some .unknown
  | _ => none

/-- `sext_16(TEMP)`, hundredths of a degree Celsius (10_state.md R19; two's complement, log entry 10). -/
def tempHundredths (s : State) : Int := s.temp.toInt

/-- Temperature in degrees Celsius, exactly (41_frame_parse.md R63). -/
def tempCelsius (s : State) : Rat := tempHundredths s / 100

/-- Humidity in per cent, exactly (41_frame_parse.md R63). -/
def humPercent (s : State) : Rat := (s.hum.toNat : Rat) / 100

/-- The raw gas value; no unit is asserted (41_frame_parse.md R63, 90_conflicts.md C4). -/
def gasRaw (s : State) : Nat := s.gas.toNat

end Sys2Proof.Machine
end

