-- ==== Sys2Proof/Config.lean ====
section
/-! DEFINITION. The one parameter of 00_scope.md R5 that the spec leaves open, N_INSTANCES. Every other
parameter has one value there, and stands as a literal where it is used (FBUF_SIZE 13 in Machine/State.lean). -/

namespace Sys2Proof.Config

/-- How many blocks the system has beyond the first: open in the spec, so it has no body here
(00_scope.md R5 N_INSTANCES; log entry 8). -/
opaque extraInstances : Nat

/-- N_INSTANCES, at least 1: one block per serial channel (00_scope.md R5, 20_memory.md R39). -/
abbrev nInstances : Nat := extraInstances + 1

end Sys2Proof.Config
end

