-- ==== Sys2Proof/Machine/System.lean ====
section
/-! DEFINITION. Several instances: N_INSTANCES blocks, one per serial channel, each with its own ports and its
own copy of every register (00_scope.md R5, 20_memory.md R39; log entry 8). -/

namespace Sys2Proof.Machine

/-- The blocks of a system, one per serial channel. -/
abbrev System := Vector State Config.nInstances

/-- Every block in its reset state. -/
def systemReset : System := Vector.replicate Config.nInstances State.reset

/-- Block `k` serves one cycle of its own ports; the other blocks are not touched (20_memory.md R39). -/
def systemStep (k : Fin Config.nInstances) (S : System) : Host.Outcome System Fault Refusal :=
  match step (S[k]) with
  | .next t => .next (S.set k t)
  | .fault f => .fault f
  | .refused r => .refused r

end Sys2Proof.Machine
end

