-- ==== Sys2Proof/Safety.lean ====
section
/-! DEFINITION. What the claims call a legal state and a well-behaved host. -/

namespace Sys2Proof.Machine

/-- The STATUS values the last CMD write can have left, by the byte it wrote: each operation raises only the
codes 60_exceptions.md R65 lists for it, and a byte that encodes none leaves ILLEGAL_OP (30_encoding.md R44). -/
def reportable (cmd : Byte) : List Byte :=
  match decode cmd with
  | .ok .ckgen => [0]
  | .ok (.validate _ true) => [0, 1, 2, 3]
  | .ok (.validate _ false) => [0, 1, 3]
  | .ok .pcomb => [0, 1, 2, 3]
  | .ok .pstat => [0, 1, 3]
  | .ok .pconf => [0, 1, 4]
  | .error _ => [5]

/-- No CMD write since reset: CMD, STATUS and every register only an operation writes still hold 0
(70_reset_and_hazards.md R77). -/
def NoCommandYet (s : State) : Prop :=
  s.cmd = 0 ∧ s.status = 0 ∧ s.calcReg = 0 ∧ s.gas = 0 ∧ s.temp = 0 ∧ s.hum = 0 ∧ s.led = 0

/-- A legal state: STATUS holds a code that the byte in CMD can report, or no command has been written yet;
LED holds 0, 1 or 2 (10_state.md R16, R21). -/
structure LegalState (s : State) : Prop where
  status : s.status ∈ reportable s.cmd ∨ NoCommandYet s
  led : s.led = 0 ∨ s.led = 1 ∨ s.led = 2

/-- A cycle within the interface contract: never wr and rd in one transaction (20_memory.md R40). -/
def BusCycle.withinContract (c : BusCycle) : Bool := c.rst || !(c.wr && c.rd)

/-- Every cycle the host will drive is within the contract. -/
def HostWithinContract (s : State) : Prop := ∀ c ∈ s.host, c.withinContract = true

end Sys2Proof.Machine
end

