-- ==== Sys2Proof/Certificates/Slice0/Obligations.lean ====
section
/-! DEFINITION. The statements about the block, one per definition under Obligations, and the few functions of
the spec they are written with. -/

namespace Sys2Proof.Machine.Spec

/-- Frame bytes `a` to `a + n - 1`, in wire order (10_state.md R12). -/
def bytesFrom (s : State) (a n : Nat) : List Byte := (s.fbuf.toList.drop a).take n

/-- The two's-complement negative of the 8-bit sum of bytes 1 to L-2: what FBUF[L-1] must be for a frame of
length `len` (40_checksum.md R49, R50, R55). -/
def wantedChecksum (s : State) (len : Nat) : Byte := - (bytesFrom s 1 (len - 2)).sum

/-- `256 * hi + lo` (41_frame_parse.md R56). -/
def bigEndian (hi lo : Byte) : Half := BitVec.ofNat 16 (256 * hi.toNat + lo.toNat)

/-- `s` after the cycle at the front of its host list is taken: what is left to drive is `rest`, and no read
data is on the port. Both are the model's own fields (log entries 1 and 2), no register of the spec. -/
def serving (s : State) (rest : List BusCycle) : State := { s with host := rest, rdata := none }

/-- `s` with frame byte `i` replaced by `b` (i below 13). -/
def withByte (s : State) (i : Fin 13) (b : Byte) : State := { s with fbuf := s.fbuf.set i b }

/-- The cells an operation reads (40_checksum.md R52, R53; 41_frame_parse.md R59, R60, R62). -/
def readsCell (i : Instr) (k : Nat) : Prop :=
  match i with
  | .ckgen => 1 ≤ k ∧ k ≤ 7
  | .validate elen hen => (1 ≤ k ∧ k ≤ elen.toNat - 1) ∨ (hen = true ∧ k = 0)
  | .pcomb => k ≤ 12
  | .pstat => 1 ≤ k ∧ k ≤ 8
  | .pconf => k ≤ 1

/-- Whether an operation reads FLEN: every one but CKGEN (10_state.md R13). -/
def readsFlen (i : Instr) : Prop := i ≠ .ckgen

/-- Whether an operation reads HDR0 and HDR1: VALIDATE with HEN = 1 only (10_state.md R14). -/
def readsHeader (i : Instr) : Prop := ∃ elen, i = .validate elen true

/-- The length an operation expects in FLEN; CKGEN expects none (60_exceptions.md R65). -/
def expectedFlen (i : Instr) : Option Nat :=
  match i with
  | .ckgen => none
  | .validate elen _ => some elen.toNat
  | .pcomb => some 13
  | .pstat => some 9
  | .pconf => some 2

/-- Bytes 0 and 1 fail the operation's header check, or for PCONF its exact-value check; the other operations
have none (60_exceptions.md R65). -/
def headWrong (i : Instr) (s : State) : Prop :=
  match i with
  | .ckgen => False
  | .validate _ hen => hen = true ∧ (s.fbuf[0] ≠ s.hdr0 ∨ s.fbuf[1] ≠ s.hdr1)
  | .pcomb => s.fbuf[0] ≠ 0xFF ∨ s.fbuf[1] ≠ 0x87
  | .pstat => False
  | .pconf => s.fbuf[0] ≠ 0x4F ∨ s.fbuf[1] ≠ 0x4B

/-- The operation has a checksum stage for the length `len` and the frame's last byte is not the wanted checksum
(40_checksum.md R51). -/
def checksumWrong (i : Instr) (s : State) (len : Nat) : Prop :=
  i ≠ .ckgen ∧ i ≠ .pconf ∧ ∀ h : len - 1 < 13, s.fbuf[len - 1] ≠ wantedChecksum s len

/-- The bus addresses whose value an operation may change: FBUF[8], STATUS, CALC, GAS, TEMP, HUM, LED as
10_state.md R11 lists "written by". -/
def mayChange (i : Instr) : List Byte :=
  match i with
  | .ckgen => [0x08, 0x14, 0x15]
  | .validate _ _ => [0x14, 0x15]
  | .pcomb => [0x14, 0x15, 0x16, 0x17, 0x18, 0x19, 0x1A, 0x1B]
  | .pstat => [0x14, 0x15, 0x1C]
  | .pconf => [0x14]

end Sys2Proof.Machine.Spec

open Sys2Proof Sys2Proof.Machine Sys2Proof.Machine.Spec

/-! ## Reset -/

/-- 70_reset_and_hazards.md R77: a reset step sets every register to 0 whatever the state before it, performs no
transaction (a strobe beside rst does nothing), and the state after reset is that state. `host` and `rdata` are
the model's own fields (log entries 1, 2 and 5). -/
def Obligations.ResetClearsEveryRegister : Prop :=
  State.reset = ⟨Vector.replicate 13 0, 0, 0, 0, 0, 0, 0, 0, 0, 0, 0, [], none⟩ ∧
  ∀ (s : State) (c : BusCycle) (rest : List BusCycle),
    s.host = c :: rest → c.rst = true → (c.wr && c.rd) = false →
    step s = .next ⟨Vector.replicate 13 0, 0, 0, 0, 0, 0, 0, 0, 0, 0, 0, rest, none⟩

/-- rst with both strobes is a reset too: the model's choice, log entry 4 (deduced from
70_reset_and_hazards.md R77). -/
def Obligations.ResetWinsOverBothStrobes : Prop :=
  ∀ (s : State) (c : BusCycle) (rest : List BusCycle),
    s.host = c :: rest → c.rst = true → c.wr = true → c.rd = true →
    step s = .next { State.reset with host := rest }

/-! ## Bus transactions -/

/-- 20_memory.md R30: a read returns the byte the address map gives, with reserved bits and reserved addresses
as 0, and changes no register. -/
def Obligations.ReadReturnsTheAddressedByte : Prop :=
  ∀ (s : State) (a w : Byte) (rest : List BusCycle), s.host = ⟨false, false, true, a, w⟩ :: rest →
    ∃ v : Byte, step s = .next { s with host := rest, rdata := some v } ∧
      (∀ h : a.toNat < 13, v = s.fbuf[a.toNat]) ∧
      (13 ≤ a.toNat ∧ a.toNat ≤ 15 → v = 0) ∧
      (a = 0x10 → v = s.flen) ∧
      (a = 0x11 → v = s.hdr0) ∧
      (a = 0x12 → v = s.hdr1) ∧
      (a = 0x13 → v = s.cmd) ∧
      (a = 0x14 → v.toNat = s.status.toNat % 8) ∧
      (a = 0x15 → v = s.calcReg) ∧
      (a = 0x16 → v.toNat = s.gas.toNat / 256) ∧
      (a = 0x17 → v.toNat = s.gas.toNat % 256) ∧
      (a = 0x18 → v.toNat = s.temp.toNat / 256) ∧
      (a = 0x19 → v.toNat = s.temp.toNat % 256) ∧
      (a = 0x1A → v.toNat = s.hum.toNat / 256) ∧
      (a = 0x1B → v.toNat = s.hum.toNat % 256) ∧
      (a = 0x1C → v.toNat = s.led.toNat % 4) ∧
      (0x1D ≤ a.toNat → v = 0)

/-- 20_memory.md R31: a write stores the byte in FBUF, FLEN, HDR0 or HDR1 and changes nothing else; a write to
CMD stores it and performs the operation it encodes; a write to a read-only register or a reserved address
changes no register. -/
def Obligations.WriteFollowsTheAddressMap : Prop :=
  ∀ (s : State) (a v : Byte) (rest : List BusCycle), s.host = ⟨false, true, false, a, v⟩ :: rest →
    (∀ h : a.toNat < 13, step s = .next { serving s rest with fbuf := s.fbuf.set a.toNat v }) ∧
    (a = 0x10 → step s = .next { serving s rest with flen := v }) ∧
    (a = 0x11 → step s = .next { serving s rest with hdr0 := v }) ∧
    (a = 0x12 → step s = .next { serving s rest with hdr1 := v }) ∧
    (a = 0x13 → ∀ i, decode v = .ok i → step s = exec i { serving s rest with cmd := v }) ∧
    (a = 0x13 → ∀ e, decode v = .error e → step s = .next { serving s rest with cmd := v, status := 5 }) ∧
    (13 ≤ a.toNat ∧ a.toNat ≤ 15 ∨ 0x14 ≤ a.toNat → step s = .next (serving s rest))

/-- 20_memory.md R32: when the byte written to CMD decodes to an operation, the step stores the byte in CMD and
is exec of that operation at the state so reached. -/
def Obligations.StepRunsTheDecodedOperation : Prop :=
  ∀ (s : State) (v : Byte) (i : Instr) (rest : List BusCycle),
    s.host = ⟨false, true, false, 0x13, v⟩ :: rest → decode v = .ok i → i.WellFormed →
    step s = exec i { s with host := rest, rdata := none, cmd := v }

/-- An opcode-table word placed by withFetchWord is run by the very next step; the way a program comes to run is
the model's choice, log entry 1. -/
def Obligations.FetchWordRunsTheTableOperation : Prop :=
  ∀ (s : State) (w : Nat) (i : Instr), w < 256 → decodeTableWord 8 w = some i →
    step (s.withFetchWord 8 w) = exec i { s with rdata := none, cmd := BitVec.ofNat 8 w }

/-- A cycle that asserts wr and rd together, with rst low, is refused, whatever the address (20_memory.md, ports
and host interface). -/
def Obligations.BothStrobesAreRefused : Prop :=
  ∀ (s : State) (a v : Byte) (rest : List BusCycle), s.host = ⟨false, true, true, a, v⟩ :: rest →
    step s = .refused .bothStrobes

/-- A cycle with no strobe, or no cycle at all, changes no register: the model's choice, log entry 3. -/
def Obligations.IdleCycleChangesNoRegister : Prop :=
  (∀ s : State, s.host = [] → step s = .next (serving s [])) ∧
  (∀ (s : State) (a v : Byte) (rest : List BusCycle), s.host = ⟨false, false, false, a, v⟩ :: rest →
    step s = .next (serving s rest))

/-- Under a host that keeps the interface contract every step answers a next state, from which the host still
keeps it: no transaction and no operation ever stops the block. That a step with no cycle or no strobe answers a
next state is the model's choice, log entry 3; that rst with both strobes is within the contract and goes on is
the model's choice, log entry 4 (both DEDUCED); the host list itself is log entry 1. -/
def Obligations.BlockNeverStopsUnderTheContract : Prop :=
  ∀ s : State, HostWithinContract s → ∃ t : State, step s = .next t ∧ HostWithinContract t ∧ t.host = s.host.tail

/-- Only a CMD write and a reset change CMD, STATUS, CALC, GAS, TEMP, HUM or LED (20_memory.md, "CMD is the only
address with a side effect"; 60_exceptions.md R68). That a cycle with no strobe changes none either is the
model's choice, log entry 3 (DEDUCED). -/
def Obligations.OnlyCommandsAndResetChangeResults : Prop :=
  ∀ (s : State) (c : BusCycle) (rest : List BusCycle),
    s.host = c :: rest → c.rst = false → (c.wr && c.rd) = false → ¬ (c.wr = true ∧ c.addr = 0x13) →
    ∃ t : State, step s = .next t ∧ t.cmd = s.cmd ∧ t.status = s.status ∧ t.calcReg = s.calcReg ∧
      t.gas = s.gas ∧ t.temp = s.temp ∧ t.hum = s.hum ∧ t.led = s.led

/-- A read right after a write other than to CMD: of the same read/write register it returns the byte written,
of any other address what it would have returned before the write (20_memory.md R35). -/
def Obligations.ReadAfterWriteReturnsTheLatestByte : Prop :=
  ∀ (s : State) (a v b : Byte) (rest : List BusCycle), a ≠ 0x13 →
    s.host = writeCycle a v :: readCycle b :: rest →
    ∃ t : State, Host.Core.run core 2 s = .next t ∧
      (a = b → a.toNat < 13 ∨ 0x10 ≤ a.toNat ∧ a.toNat ≤ 0x12 → t.rdata = some v) ∧
      (a ≠ b ∨ 13 ≤ a.toNat ∧ a.toNat ≤ 15 ∨ 0x14 ≤ a.toNat → t.rdata = some (busRead b s))

/-- A read issued right after a CMD write sees every result of that operation (20_memory.md R35): for each
operation, reading any address returns what the state the operation leaves holds there. -/
def Obligations.ReadAfterCommandSeesItsResults : Prop :=
  ∀ (s : State) (i : Instr) (b : Byte) (rest : List BusCycle), i.WellFormed →
    s.host = writeCycle 0x13 (encode i) :: readCycle b :: rest →
    ∃ u t : State, exec i { serving s (readCycle b :: rest) with cmd := encode i } = .next u ∧
      Host.Core.run core 2 s = .next t ∧ t = { u with host := rest, rdata := some (busRead b u) }

/-! ## Encoding -/

/-- 30_encoding.md R42: the operation map. Each operation's exact legal bytes, and no other byte decodes. -/
def Obligations.OperationMapIsExact : Prop :=
  ∀ v : Byte,
    (decode v = .ok .ckgen ↔ v = 0x01) ∧
    (∀ (elen : BitVec 4) (hen : Bool), decode v = .ok (.validate elen hen) ↔
      2 ≤ elen.toNat ∧ elen.toNat ≤ 13 ∧ v.toNat = 16 * elen.toNat + (if hen then 8 else 0) + 2) ∧
    (decode v = .ok .pcomb ↔ v = 0x03) ∧
    (decode v = .ok .pstat ↔ v = 0x04) ∧
    (decode v = .ok .pconf ↔ v = 0x05) ∧
    ((∃ i, decode v = .ok i) ↔ v ∈ [0x01#8, 0x03, 0x04, 0x05,
      0x22, 0x2A, 0x32, 0x3A, 0x42, 0x4A, 0x52, 0x5A, 0x62, 0x6A, 0x72, 0x7A, 0x82, 0x8A,
      0x92, 0x9A, 0xA2, 0xAA, 0xB2, 0xBA, 0xC2, 0xCA, 0xD2, 0xDA])

/-- 30_encoding.md R44: writing a byte that encodes no operation to CMD stores it, sets STATUS to 5 and changes
no other register, whatever the frame, FLEN and the header registers hold. -/
def Obligations.IllegalCommandSetsErrFiveOnly : Prop :=
  ∀ (s : State) (v : Byte) (rest : List BusCycle), s.host = ⟨false, true, false, 0x13, v⟩ :: rest →
    (v.toNat % 8 = 0 ∨ v.toNat % 8 = 6 ∨ v.toNat % 8 = 7 ∨
      ((v.toNat % 8 = 1 ∨ v.toNat % 8 = 3 ∨ v.toNat % 8 = 4 ∨ v.toNat % 8 = 5) ∧ v.toNat / 8 ≠ 0) ∨
      (v.toNat % 8 = 2 ∧ (v.toNat / 16 = 0 ∨ v.toNat / 16 = 1 ∨ v.toNat / 16 = 14 ∨ v.toNat / 16 = 15))) →
    step s = .next { s with host := rest, rdata := none, cmd := v, status := 5 }

/-- Decode of encode is the instruction, for every well-formed instruction and every operand (30_encoding.md,
format and operation map). -/
def Obligations.DecodeInvertsEncode : Prop :=
  ∀ i : Instr, i.WellFormed → decode (encode i) = .ok i

/-- Every byte that decodes is the encoding of the well-formed instruction it decodes to, so no legal byte has a
second spelling (30_encoding.md, operation map). -/
def Obligations.EncodeInvertsDecode : Prop :=
  ∀ (v : Byte) (i : Instr), decode v = .ok i → i.WellFormed ∧ encode i = v

/-- Words written out from the encodings of the opcode table decode to the operation they stand for. -/
def Obligations.SampleCommandBytesDecode : Prop :=
  decode 0b00000001 = .ok .ckgen ∧
  decode 0b10010010 = .ok (.validate 9 false) ∧
  decode 0b11011010 = .ok (.validate 13 true) ∧
  decode 0b00000011 = .ok .pcomb ∧
  decode 0b00000100 = .ok .pstat ∧
  decode 0b00000101 = .ok .pconf ∧
  decode 0b00010010 = .error .illegalLength ∧
  decode 0b00001011 = .error .operandBitsSet ∧
  decode 0b00000000 = .error .unassignedOp

/-! ## Checksum unit -/

/-- 40_checksum.md R49: sum8 is the byte sum modulo 256, 0 for an empty range; ck is (0x100 - sum8) mod 0x100, so
that sum8 + ck is 0 mod 256, ck is (sum8 XOR 0xFF) + 1 mod 256, and a zero sum gives 0x00; accumulating at
8 bits with the carry discarded gives the same result. -/
def Obligations.ChecksumIsTwosComplementOfByteSum : Prop :=
  ∀ (s : State) (a b : Nat), b < 13 →
    sum8 s a b = ((bytesFrom s a (b + 1 - a)).map BitVec.toNat).sum % 256 ∧
    (b < a → sum8 s a b = 0) ∧
    (ck s a b).toNat = (0x100 - sum8 s a b) % 0x100 ∧
    (sum8 s a b + (ck s a b).toNat) % 256 = 0 ∧
    (ck s a b).toNat = ((sum8 s a b ^^^ 0xFF) + 1) % 256 ∧
    (sum8 s a b = 0 → ck s a b = 0) ∧
    ck s a b = - (bytesFrom s a (b + 1 - a)).sum

/-- 40_checksum.md R52: CKGEN always succeeds, writes the negative of the 8-bit sum of bytes 1 to 7 to FBUF[8]
and CALC and 0 to STATUS, and changes nothing else. -/
def Obligations.CkgenWritesTheChecksum : Prop :=
  ∀ s : State,
    let c : Byte := - (s.fbuf[1] + s.fbuf[2] + s.fbuf[3] + s.fbuf[4] + s.fbuf[5] + s.fbuf[6] + s.fbuf[7])
    exec .ckgen s = .next { s with fbuf := s.fbuf.set 8 c, calcReg := c, status := 0 }

/-- 40_checksum.md R53: the outcome of VALIDATE for every legal length, both values of HEN and every state. -/
def Obligations.ValidateOutcome : Prop :=
  ∀ (s : State) (elen : BitVec 4) (hen : Bool) (h : elen.toNat - 1 < 13), 2 ≤ elen.toNat →
    let c : Byte := wantedChecksum s elen.toNat
    exec (.validate elen hen) s = .next (
      if s.flen.toNat ≠ elen.toNat then { s with status := 1 }
      else if hen = true ∧ (s.fbuf[0] ≠ s.hdr0 ∨ s.fbuf[1] ≠ s.hdr1) then { s with status := 2 }
      else if s.fbuf[elen.toNat - 1] ≠ c then { s with calcReg := c, status := 3 }
      else { s with calcReg := c, status := 0 })

/-- exec of a VALIDATE whose length has no encoding takes the ILLEGAL_OP outcome: the model's choice, log entry 6. -/
def Obligations.ValidateWithoutEncodingIsIllegal : Prop :=
  ∀ (s : State) (elen : BitVec 4) (hen : Bool), elen.toNat < 2 ∨ 13 < elen.toNat →
    exec (.validate elen hen) s = .next { s with status := 5 }

/-- 40_checksum.md R54 item 1: for a frame of the expected length, VALIDATE without a header check succeeds if
and only if bytes 1 to L-1, the checksum byte included, sum to 0 modulo 256. -/
def Obligations.ValidatePassesIffCoveredSumIsZero : Prop :=
  ∀ (s : State) (elen : BitVec 4), 2 ≤ elen.toNat → elen.toNat ≤ 13 → s.flen.toNat = elen.toNat →
    ∃ t : State, exec (.validate elen false) s = .next t ∧
      (t.status = 0 ↔ (bytesFrom s 1 (elen.toNat - 1)).sum = 0)

/-- 40_checksum.md R54 item 2: reordering bytes 1 to L-2 changes neither CALC nor the outcome. -/
def Obligations.ReorderedBytesAreNotDetected : Prop :=
  ∀ (s : State) (f : Vector Byte 13) (elen : BitVec 4), 2 ≤ elen.toNat → elen.toNat ≤ 13 →
    List.Perm ((f.toList.drop 1).take (elen.toNat - 2)) (bytesFrom s 1 (elen.toNat - 2)) →
    f.toList.drop (elen.toNat - 1) = s.fbuf.toList.drop (elen.toNat - 1) →
    ∃ t : State, exec (.validate elen false) s = .next t ∧
      exec (.validate elen false) { s with fbuf := f } = .next { t with fbuf := f }

/-- 40_checksum.md R54 item 3: after a passing VALIDATE, changing one of bytes 1 to L-1 makes it fail with
CHECKSUM, and changing two of them by amounts that cancel is not detected. -/
def Obligations.SingleByteChangeIsDetected : Prop :=
  ∀ (s t : State) (elen : BitVec 4) (i : Fin 13), 2 ≤ elen.toNat → elen.toNat ≤ 13 →
    1 ≤ i.val → i.val < elen.toNat →
    exec (.validate elen false) s = .next t → t.status = 0 →
    (∀ b : Byte, b ≠ s.fbuf[i] →
      ∃ u : State, exec (.validate elen false) (withByte s i b) = .next u ∧ u.status = 3) ∧
    (∀ (j : Fin 13) (d : Byte), 1 ≤ j.val → j.val < elen.toNat → j ≠ i →
      ∃ u : State, exec (.validate elen false) (withByte (withByte s i (s.fbuf[i] + d)) j (s.fbuf[j] - d)) = .next u ∧
        u.status = 0)

/-- 40_checksum.md R54 item 4: byte 0 affects none of CKGEN, VALIDATE without a header check and PSTAT. -/
def Obligations.StartByteNeverAffectsTheChecksum : Prop :=
  ∀ (s : State) (b : Byte) (i : Instr), i = .ckgen ∨ i = .pstat ∨ (∃ elen, i = .validate elen false) →
    ∃ t : State, exec i s = .next t ∧ exec i (withByte s 0 b) = .next (withByte t 0 b)

/-- 40_checksum.md R54 item 5, 95_test_vectors.md E6: from any state, CKGEN, then 9 written to FLEN, then
VALIDATE 9, always succeeds. -/
def Obligations.GeneratedFrameAlwaysValidates : Prop :=
  ∀ (s : State) (rest : List BusCycle),
    s.host = writeCycle 0x13 0x01 :: writeCycle 0x10 0x09 :: writeCycle 0x13 0x92 :: rest →
    ∃ t : State, Host.Core.run core 3 s = .next t ∧ t.status = 0 ∧ t.fbuf[8] = t.calcReg ∧
      (bytesFrom t 1 8).sum = 0 ∧ t.host = rest

/-! ## Frame parser -/

/-- 41_frame_parse.md R59: the outcome of PCOMB in every state. -/
def Obligations.PcombOutcome : Prop :=
  ∀ s : State,
    let c : Byte := wantedChecksum s 13
    exec .pcomb s = .next (
      if s.flen ≠ 13 then { s with status := 1 }
      else if s.fbuf[0] ≠ 0xFF ∨ s.fbuf[1] ≠ 0x87 then { s with status := 2 }
      else if s.fbuf[12] ≠ c then { s with calcReg := c, status := 3 }
      else { s with
        calcReg := c
        gas := bigEndian s.fbuf[2] s.fbuf[3]
        temp := bigEndian s.fbuf[8] s.fbuf[9]
        hum := bigEndian s.fbuf[10] s.fbuf[11]
        status := 0 })

/-- 41_frame_parse.md R60, R61: the outcome of PSTAT in every state; the LED code is 1, 0 or 2. -/
def Obligations.PstatOutcome : Prop :=
  ∀ s : State,
    let c : Byte := wantedChecksum s 9
    exec .pstat s = .next (
      if s.flen ≠ 9 then { s with status := 1 }
      else if s.fbuf[8] ≠ c then { s with calcReg := c, status := 3 }
      else { s with
        calcReg := c
        led := (if s.fbuf[2] = 0x01 then 1 else if s.fbuf[2] = 0x00 then 0 else 2)
        status := 0 })

/-- 41_frame_parse.md R62: the outcome of PCONF in every state. -/
def Obligations.PconfOutcome : Prop :=
  ∀ s : State,
    exec .pconf s = .next (
      if s.flen ≠ 2 then { s with status := 1 }
      else if s.fbuf[0] ≠ 0x4F ∨ s.fbuf[1] ≠ 0x4B then { s with status := 4 }
      else { s with status := 0 })

/-- 20_memory.md R29: each 16-bit result has its high byte at the lower address, so after a successful PCOMB the
addresses 0x16 to 0x1B read as the frame's bytes 2, 3, 8, 9, 10 and 11 as they arrived. -/
def Obligations.ResultAddressesReadAsTheFrameBytes : Prop :=
  (∀ s : State, (busRead 0x16 s ++ busRead 0x17 s : BitVec 16) = s.gas ∧
    (busRead 0x18 s ++ busRead 0x19 s : BitVec 16) = s.temp ∧
    (busRead 0x1A s ++ busRead 0x1B s : BitVec 16) = s.hum) ∧
  (∀ s t : State, exec .pcomb s = .next t → t.status = 0 →
    busRead 0x16 t = s.fbuf[2] ∧ busRead 0x17 t = s.fbuf[3] ∧
    busRead 0x18 t = s.fbuf[8] ∧ busRead 0x19 t = s.fbuf[9] ∧
    busRead 0x1A t = s.fbuf[10] ∧ busRead 0x1B t = s.fbuf[11])

/-- The confirmation "OK" fails the generic validation and passes PCONF (40_checksum.md R53 corner case;
90_conflicts.md C3). -/
def Obligations.OkReplyNeedsPconf : Prop :=
  ∀ s : State, s.flen = 2 → s.fbuf[0] = 0x4F → s.fbuf[1] = 0x4B →
    exec (.validate 2 false) s = .next { s with calcReg := 0, status := 3 } ∧
    exec .pconf s = .next { s with status := 0 }

/-- The signed reading of TEMP and the exact physical values (41_frame_parse.md R63; two's complement is the
spec's general knowledge, log entry 10). -/
def Obligations.PhysicalReadings : Prop :=
  ∀ s : State,
    tempHundredths s = (if s.temp.toNat < 32768 then (s.temp.toNat : Int) else (s.temp.toNat : Int) - 65536) ∧
    tempCelsius s * 100 = (tempHundredths s : Rat) ∧
    humPercent s * 100 = (s.hum.toNat : Rat) ∧
    gasRaw s = s.gas.toNat

/-! ## Frames and whole-block rules -/

/-- The frame of every operation: FLEN, HDR0, HDR1, CMD and every bus address outside those 10_state.md R11
lists as written by the operation read as before. -/
def Obligations.OperationFrame : Prop :=
  ∀ (i : Instr) (s : State), i.WellFormed → ∃ t : State, exec i s = .next t ∧
    (∀ a : Byte, a ∉ mayChange i → busRead a t = busRead a s) ∧
    (i = .ckgen ∨ t.fbuf = s.fbuf) ∧
    (∀ (k : Nat) (h : k < 13), k ≠ 8 → t.fbuf[k] = s.fbuf[k]) ∧
    t.flen = s.flen ∧ t.hdr0 = s.hdr0 ∧ t.hdr1 = s.hdr1 ∧ t.cmd = s.cmd ∧
    (i = .pcomb ∨ t.gas = s.gas ∧ t.temp = s.temp ∧ t.hum = s.hum) ∧
    (i = .pstat ∨ t.led = s.led) ∧ (i = .pconf → t.calcReg = s.calcReg) ∧
    t.host = s.host ∧ t.rdata = s.rdata

/-- A failing operation leaves the state before it with only STATUS and, when the failure is CHECKSUM, CALC
changed: never a partial decode (10_state.md R24; 60_exceptions.md R66, R69). -/
def Obligations.FailingOperationWritesNoResult : Prop :=
  ∀ (i : Instr) (s t : State), exec i s = .next t → t.status ≠ 0 →
    t = { s with status := t.status, calcReg := t.calcReg } ∧ (t.status ≠ 3 → t.calcReg = s.calcReg)

/-- An operation reads only its inputs: FLEN, the header registers and the cells its rule lists; two states that
agree on those, however they differ elsewhere, get the same STATUS, and the same value in each register the
operation may write that was equal before (10_state.md R12 to R14; 70_reset_and_hazards.md R80). -/
def Obligations.OperationReadsOnlyItsInputs : Prop :=
  ∀ (i : Instr) (s s' : State), i.WellFormed →
    (readsFlen i → s.flen = s'.flen) → (readsHeader i → s.hdr0 = s'.hdr0 ∧ s.hdr1 = s'.hdr1) →
    (∀ (k : Nat) (h : k < 13), readsCell i k → s.fbuf[k] = s'.fbuf[k]) →
    ∃ t t' : State, exec i s = .next t ∧ exec i s' = .next t' ∧ t.status = t'.status ∧
      (s.calcReg = s'.calcReg → t.calcReg = t'.calcReg) ∧
      (s.gas = s'.gas → t.gas = t'.gas) ∧ (s.temp = s'.temp → t.temp = t'.temp) ∧
      (s.hum = s'.hum → t.hum = t'.hum) ∧ (s.led = s'.led → t.led = t'.led) ∧
      (i = .ckgen → t.fbuf[8] = t'.fbuf[8])

/-- 60_exceptions.md R67: the checks are made in the order ILLEGAL_OP, LENGTH, HEADER or UNEXPECTED, CHECKSUM, and
the first that fails is the one reported, whatever the later ones would say; when none fails STATUS is 0. -/
def Obligations.FirstFailingCheckIsReported : Prop :=
  ∀ (s : State) (v : Byte) (rest : List BusCycle), s.host = writeCycle 0x13 v :: rest →
    ∃ t : State, step s = .next t ∧
      ((∃ e, decode v = .error e) → t.status = 5) ∧
      (∀ i, decode v = .ok i → expectedFlen i = none → t.status = 0) ∧
      (∀ i len, decode v = .ok i → expectedFlen i = some len →
        (s.flen.toNat ≠ len → t.status = 1) ∧
        (s.flen.toNat = len → headWrong i s → t.status = if i = .pconf then 4 else 2) ∧
        (s.flen.toNat = len → ¬ headWrong i s → checksumWrong i s len → t.status = 3) ∧
        (s.flen.toNat = len → ¬ headWrong i s → ¬ checksumWrong i s len → t.status = 0))

/-- An operation other than CKGEN that succeeds has, in the same step, found the expected length, the right
header and the right checksum: no value is decoded from an unchecked frame (41_frame_parse.md R64). -/
def Obligations.SuccessMeansTheFrameIsValid : Prop :=
  ∀ (i : Instr) (s t : State) (len : Nat), i.WellFormed → expectedFlen i = some len → exec i s = .next t →
    (t.status = 0 ↔ s.flen.toNat = len ∧ ¬ headWrong i s ∧ ¬ checksumWrong i s len)

/-- An operation whose inputs did not change gives the same results again (20_memory.md R32). -/
def Obligations.RepeatingAnOperationChangesNothing : Prop :=
  ∀ (i : Instr) (s : State), ∃ t : State, exec i s = .next t ∧ exec i t = .next t

/-- GAS, TEMP and HUM change only in a step that writes PCOMB to CMD and succeeds, and LED only in one that
writes PSTAT and succeeds, resets apart; the new values are those of the frame (10_state.md R18 to R21). For a
cycle with no strobe this is the model's choice, log entry 3 (DEDUCED). -/
def Obligations.ResultsChangeOnlyByASuccessfulParse : Prop :=
  ∀ (s t : State) (c : BusCycle) (rest : List BusCycle),
    s.host = c :: rest → c.rst = false → step s = .next t →
    (t.gas ≠ s.gas ∨ t.temp ≠ s.temp ∨ t.hum ≠ s.hum →
      c = ⟨false, true, false, 0x13, 0x03⟩ ∧ t.status = 0 ∧
      t.gas = bigEndian s.fbuf[2] s.fbuf[3] ∧ t.temp = bigEndian s.fbuf[8] s.fbuf[9] ∧
      t.hum = bigEndian s.fbuf[10] s.fbuf[11]) ∧
    (t.led ≠ s.led → c = ⟨false, true, false, 0x13, 0x04⟩ ∧ t.status = 0 ∧
      t.led = (if s.fbuf[2] = 0x01 then 1 else if s.fbuf[2] = 0x00 then 0 else 2))

/-- Every step keeps a legal state legal: STATUS always holds a code that the byte in CMD can report (so 6 and 7
never occur, HEADER only after a header-checking operation, UNEXPECTED only after PCONF, ILLEGAL_OP exactly
after an illegal byte), and LED holds 0, 1 or 2 (10_state.md R16, R21; 60_exceptions.md R65). For a step with no
cycle or no strobe, and for rst with both strobes, this is the model's choice, log entries 3 and 4 (DEDUCED). -/
def Obligations.StepKeepsLegalState : Prop :=
  ∀ s t : State, LegalState s → step s = .next t → LegalState t

/-- The reset state is legal. -/
def Obligations.ResetIsLegal : Prop := LegalState State.reset

/-- In a legal state the host reads STATUS as a code of 60_exceptions.md R65, 0 to 5, and LED as a state of
10_state.md R21, 0 to 2. -/
def Obligations.LegalStateReadsLegalCodes : Prop :=
  ∀ s : State, LegalState s →
    (busRead 0x14 s).toNat ≤ 5 ∧ busRead 0x14 s = s.status ∧
    (busRead 0x1C s).toNat ≤ 2 ∧ busRead 0x1C s = s.led ∧ (ledState s).isSome = true

/-- The torn 16-bit read: with a PCOMB between the two reads of GAS, the first returns the old high byte and the
second the new frame's byte 3 (70_reset_and_hazards.md R82). -/
def Obligations.CommandBetweenReadsTearsTheResult : Prop :=
  ∀ (s : State) (rest : List BusCycle),
    s.host = readCycle 0x16 :: writeCycle 0x13 0x03 :: readCycle 0x17 :: rest →
    s.flen = 13 → s.fbuf[0] = 0xFF → s.fbuf[1] = 0x87 → s.fbuf[12] = wantedChecksum s 13 →
    ∃ t u : State, step s = .next t ∧ t.rdata = some (BitVec.ofNat 8 (s.gas.toNat / 256)) ∧
      Host.Core.run core 3 s = .next u ∧ u.rdata = some s.fbuf[3] ∧ u.status = 0

/-! ## Several instances, and the host's assembler -/

/-- A step of one instance is the step of that block alone and leaves every other instance as it was
(20_memory.md R39). -/
def Obligations.InstancesShareNothing : Prop :=
  ∀ (k j : Fin Config.nInstances) (S : System) (t : State), step (S[k]) = .next t →
    ∃ S', systemStep k S = .next S' ∧ S'[k] = t ∧ (j ≠ k → S'[j] = S[j])

/-- Each mnemonic stands for a write of its command byte to CMD, and VALIDATE with a length outside 2 to 13 is
refused (30_encoding.md R46, R47). -/
def Obligations.MnemonicsExpandToCommandWrites : Prop :=
  assembleLine .ckgen = .ok [writeCycle 0x13 0x01] ∧
  assembleLine .pcomb = .ok [writeCycle 0x13 0x03] ∧
  assembleLine .pstat = .ok [writeCycle 0x13 0x04] ∧
  assembleLine .pconf = .ok [writeCycle 0x13 0x05] ∧
  (∀ v, assembleLine (.rawCmd v) = .ok [writeCycle 0x13 v]) ∧
  ∀ (len : Nat) (hen : Bool),
    (2 ≤ len ∧ len ≤ 13 → assembleLine (.validate len hen) =
      .ok [writeCycle 0x13 (BitVec.ofNat 8 (len * 16 + (if hen then 0x0A else 0x02)))]) ∧
    (len < 2 ∨ 13 < len → assembleLine (.validate len hen) = .error .validateLength)

/-- FRAME b0, ..., b(n-1), run from any state in n + 1 steps, puts the n bytes in FBUF[0] to FBUF[n-1] and n in FLEN
and changes no other register (30_encoding.md R47). That FRAME with no byte at all (n = 0) expands, to a write of 0
to FLEN alone, is the model's choice, log entry 12 (DESIGN CHOICE); the host list and the read-data port are the
model's own fields, log entries 1 and 2. -/
def Obligations.FrameLoadsTheBuffer : Prop :=
  ∀ (s : State) (bytes : List Byte) (rest cs : List BusCycle), bytes.length ≤ 13 →
    assembleLine (.frame bytes) = .ok cs → s.host = cs ++ rest →
    ∃ f : Vector Byte 13,
      Host.Core.run core (bytes.length + 1) s = .next { serving s rest with fbuf := f, flen := BitVec.ofNat 8 bytes.length } ∧
      (∀ (k : Nat) (h : k < 13), f[k] = (bytes[k]?).getD s.fbuf[k])
end

