-- ==== Sys2Proof/Laws/State.lean ====
section
/-! SUPPORT. One lemma per field per update of State, so that no proof unfolds a record update. -/

namespace Sys2Proof.Machine

variable (s : State)

@[simp] theorem setErr_fbuf (e : ErrCode) : (setErr e s).fbuf = s.fbuf := rfl
@[simp] theorem setErr_flen (e : ErrCode) : (setErr e s).flen = s.flen := rfl
@[simp] theorem setErr_hdr0 (e : ErrCode) : (setErr e s).hdr0 = s.hdr0 := rfl
@[simp] theorem setErr_hdr1 (e : ErrCode) : (setErr e s).hdr1 = s.hdr1 := rfl
@[simp] theorem setErr_cmd (e : ErrCode) : (setErr e s).cmd = s.cmd := rfl
@[simp] theorem setErr_status (e : ErrCode) : (setErr e s).status = 0#5 ++ errBits e := rfl
@[simp] theorem setErr_calcReg (e : ErrCode) : (setErr e s).calcReg = s.calcReg := rfl
@[simp] theorem setErr_gas (e : ErrCode) : (setErr e s).gas = s.gas := rfl
@[simp] theorem setErr_temp (e : ErrCode) : (setErr e s).temp = s.temp := rfl
@[simp] theorem setErr_hum (e : ErrCode) : (setErr e s).hum = s.hum := rfl
@[simp] theorem setErr_led (e : ErrCode) : (setErr e s).led = s.led := rfl
@[simp] theorem setErr_host (e : ErrCode) : (setErr e s).host = s.host := rfl
@[simp] theorem setErr_rdata (e : ErrCode) : (setErr e s).rdata = s.rdata := rfl

@[simp] theorem setCalc_fbuf (c : Byte) : (setCalc c s).fbuf = s.fbuf := rfl
@[simp] theorem setCalc_flen (c : Byte) : (setCalc c s).flen = s.flen := rfl
@[simp] theorem setCalc_hdr0 (c : Byte) : (setCalc c s).hdr0 = s.hdr0 := rfl
@[simp] theorem setCalc_hdr1 (c : Byte) : (setCalc c s).hdr1 = s.hdr1 := rfl
@[simp] theorem setCalc_cmd (c : Byte) : (setCalc c s).cmd = s.cmd := rfl
@[simp] theorem setCalc_status (c : Byte) : (setCalc c s).status = s.status := rfl
@[simp] theorem setCalc_calcReg (c : Byte) : (setCalc c s).calcReg = c := rfl
@[simp] theorem setCalc_gas (c : Byte) : (setCalc c s).gas = s.gas := rfl
@[simp] theorem setCalc_temp (c : Byte) : (setCalc c s).temp = s.temp := rfl
@[simp] theorem setCalc_hum (c : Byte) : (setCalc c s).hum = s.hum := rfl
@[simp] theorem setCalc_led (c : Byte) : (setCalc c s).led = s.led := rfl
@[simp] theorem setCalc_host (c : Byte) : (setCalc c s).host = s.host := rfl
@[simp] theorem setCalc_rdata (c : Byte) : (setCalc c s).rdata = s.rdata := rfl

@[simp] theorem setFbuf_fbuf (i : Nat) (v : Byte) : (setFbuf i v s).fbuf = s.fbuf.setIfInBounds i v := rfl
@[simp] theorem setFbuf_flen (i : Nat) (v : Byte) : (setFbuf i v s).flen = s.flen := rfl
@[simp] theorem setFbuf_hdr0 (i : Nat) (v : Byte) : (setFbuf i v s).hdr0 = s.hdr0 := rfl
@[simp] theorem setFbuf_hdr1 (i : Nat) (v : Byte) : (setFbuf i v s).hdr1 = s.hdr1 := rfl
@[simp] theorem setFbuf_cmd (i : Nat) (v : Byte) : (setFbuf i v s).cmd = s.cmd := rfl
@[simp] theorem setFbuf_status (i : Nat) (v : Byte) : (setFbuf i v s).status = s.status := rfl
@[simp] theorem setFbuf_calcReg (i : Nat) (v : Byte) : (setFbuf i v s).calcReg = s.calcReg := rfl
@[simp] theorem setFbuf_gas (i : Nat) (v : Byte) : (setFbuf i v s).gas = s.gas := rfl
@[simp] theorem setFbuf_temp (i : Nat) (v : Byte) : (setFbuf i v s).temp = s.temp := rfl
@[simp] theorem setFbuf_hum (i : Nat) (v : Byte) : (setFbuf i v s).hum = s.hum := rfl
@[simp] theorem setFbuf_led (i : Nat) (v : Byte) : (setFbuf i v s).led = s.led := rfl
@[simp] theorem setFbuf_host (i : Nat) (v : Byte) : (setFbuf i v s).host = s.host := rfl
@[simp] theorem setFbuf_rdata (i : Nat) (v : Byte) : (setFbuf i v s).rdata = s.rdata := rfl

@[simp] theorem setCombined_fbuf (g t h : Half) : (setCombined g t h s).fbuf = s.fbuf := rfl
@[simp] theorem setCombined_flen (g t h : Half) : (setCombined g t h s).flen = s.flen := rfl
@[simp] theorem setCombined_hdr0 (g t h : Half) : (setCombined g t h s).hdr0 = s.hdr0 := rfl
@[simp] theorem setCombined_hdr1 (g t h : Half) : (setCombined g t h s).hdr1 = s.hdr1 := rfl
@[simp] theorem setCombined_cmd (g t h : Half) : (setCombined g t h s).cmd = s.cmd := rfl
@[simp] theorem setCombined_status (g t h : Half) : (setCombined g t h s).status = s.status := rfl
@[simp] theorem setCombined_calcReg (g t h : Half) : (setCombined g t h s).calcReg = s.calcReg := rfl
@[simp] theorem setCombined_gas (g t h : Half) : (setCombined g t h s).gas = g := rfl
@[simp] theorem setCombined_temp (g t h : Half) : (setCombined g t h s).temp = t := rfl
@[simp] theorem setCombined_hum (g t h : Half) : (setCombined g t h s).hum = h := rfl
@[simp] theorem setCombined_led (g t h : Half) : (setCombined g t h s).led = s.led := rfl
@[simp] theorem setCombined_host (g t h : Half) : (setCombined g t h s).host = s.host := rfl
@[simp] theorem setCombined_rdata (g t h : Half) : (setCombined g t h s).rdata = s.rdata := rfl

@[simp] theorem setLed_fbuf (v : Byte) : (setLed v s).fbuf = s.fbuf := rfl
@[simp] theorem setLed_flen (v : Byte) : (setLed v s).flen = s.flen := rfl
@[simp] theorem setLed_hdr0 (v : Byte) : (setLed v s).hdr0 = s.hdr0 := rfl
@[simp] theorem setLed_hdr1 (v : Byte) : (setLed v s).hdr1 = s.hdr1 := rfl
@[simp] theorem setLed_cmd (v : Byte) : (setLed v s).cmd = s.cmd := rfl
@[simp] theorem setLed_status (v : Byte) : (setLed v s).status = s.status := rfl
@[simp] theorem setLed_calcReg (v : Byte) : (setLed v s).calcReg = s.calcReg := rfl
@[simp] theorem setLed_gas (v : Byte) : (setLed v s).gas = s.gas := rfl
@[simp] theorem setLed_temp (v : Byte) : (setLed v s).temp = s.temp := rfl
@[simp] theorem setLed_hum (v : Byte) : (setLed v s).hum = s.hum := rfl
@[simp] theorem setLed_led (v : Byte) : (setLed v s).led = v := rfl
@[simp] theorem setLed_host (v : Byte) : (setLed v s).host = s.host := rfl
@[simp] theorem setLed_rdata (v : Byte) : (setLed v s).rdata = s.rdata := rfl

@[simp] theorem storeCmd_fbuf (v : Byte) : (storeCmd v s).fbuf = s.fbuf := rfl
@[simp] theorem storeCmd_flen (v : Byte) : (storeCmd v s).flen = s.flen := rfl
@[simp] theorem storeCmd_hdr0 (v : Byte) : (storeCmd v s).hdr0 = s.hdr0 := rfl
@[simp] theorem storeCmd_hdr1 (v : Byte) : (storeCmd v s).hdr1 = s.hdr1 := rfl
@[simp] theorem storeCmd_cmd (v : Byte) : (storeCmd v s).cmd = v := rfl
@[simp] theorem storeCmd_status (v : Byte) : (storeCmd v s).status = s.status := rfl
@[simp] theorem storeCmd_calcReg (v : Byte) : (storeCmd v s).calcReg = s.calcReg := rfl
@[simp] theorem storeCmd_gas (v : Byte) : (storeCmd v s).gas = s.gas := rfl
@[simp] theorem storeCmd_temp (v : Byte) : (storeCmd v s).temp = s.temp := rfl
@[simp] theorem storeCmd_hum (v : Byte) : (storeCmd v s).hum = s.hum := rfl
@[simp] theorem storeCmd_led (v : Byte) : (storeCmd v s).led = s.led := rfl
@[simp] theorem storeCmd_host (v : Byte) : (storeCmd v s).host = s.host := rfl
@[simp] theorem storeCmd_rdata (v : Byte) : (storeCmd v s).rdata = s.rdata := rfl

@[simp] theorem driveRdata_fbuf (a : Byte) : (driveRdata a s).fbuf = s.fbuf := rfl
@[simp] theorem driveRdata_flen (a : Byte) : (driveRdata a s).flen = s.flen := rfl
@[simp] theorem driveRdata_hdr0 (a : Byte) : (driveRdata a s).hdr0 = s.hdr0 := rfl
@[simp] theorem driveRdata_hdr1 (a : Byte) : (driveRdata a s).hdr1 = s.hdr1 := rfl
@[simp] theorem driveRdata_cmd (a : Byte) : (driveRdata a s).cmd = s.cmd := rfl
@[simp] theorem driveRdata_status (a : Byte) : (driveRdata a s).status = s.status := rfl
@[simp] theorem driveRdata_calcReg (a : Byte) : (driveRdata a s).calcReg = s.calcReg := rfl
@[simp] theorem driveRdata_gas (a : Byte) : (driveRdata a s).gas = s.gas := rfl
@[simp] theorem driveRdata_temp (a : Byte) : (driveRdata a s).temp = s.temp := rfl
@[simp] theorem driveRdata_hum (a : Byte) : (driveRdata a s).hum = s.hum := rfl
@[simp] theorem driveRdata_led (a : Byte) : (driveRdata a s).led = s.led := rfl
@[simp] theorem driveRdata_host (a : Byte) : (driveRdata a s).host = s.host := rfl
@[simp] theorem driveRdata_rdata (a : Byte) : (driveRdata a s).rdata = some (busRead a s) := rfl

@[simp] theorem beginCycle_fbuf : (beginCycle s).fbuf = s.fbuf := rfl
@[simp] theorem beginCycle_flen : (beginCycle s).flen = s.flen := rfl
@[simp] theorem beginCycle_hdr0 : (beginCycle s).hdr0 = s.hdr0 := rfl
@[simp] theorem beginCycle_hdr1 : (beginCycle s).hdr1 = s.hdr1 := rfl
@[simp] theorem beginCycle_cmd : (beginCycle s).cmd = s.cmd := rfl
@[simp] theorem beginCycle_status : (beginCycle s).status = s.status := rfl
@[simp] theorem beginCycle_calcReg : (beginCycle s).calcReg = s.calcReg := rfl
@[simp] theorem beginCycle_gas : (beginCycle s).gas = s.gas := rfl
@[simp] theorem beginCycle_temp : (beginCycle s).temp = s.temp := rfl
@[simp] theorem beginCycle_hum : (beginCycle s).hum = s.hum := rfl
@[simp] theorem beginCycle_led : (beginCycle s).led = s.led := rfl
@[simp] theorem beginCycle_host : (beginCycle s).host = s.host.tail := rfl
@[simp] theorem beginCycle_rdata : (beginCycle s).rdata = none := rfl

@[simp] theorem driveFirst_fbuf (c : BusCycle) : (driveFirst c s).fbuf = s.fbuf := rfl
@[simp] theorem driveFirst_flen (c : BusCycle) : (driveFirst c s).flen = s.flen := rfl
@[simp] theorem driveFirst_hdr0 (c : BusCycle) : (driveFirst c s).hdr0 = s.hdr0 := rfl
@[simp] theorem driveFirst_hdr1 (c : BusCycle) : (driveFirst c s).hdr1 = s.hdr1 := rfl
@[simp] theorem driveFirst_cmd (c : BusCycle) : (driveFirst c s).cmd = s.cmd := rfl
@[simp] theorem driveFirst_status (c : BusCycle) : (driveFirst c s).status = s.status := rfl
@[simp] theorem driveFirst_calcReg (c : BusCycle) : (driveFirst c s).calcReg = s.calcReg := rfl
@[simp] theorem driveFirst_gas (c : BusCycle) : (driveFirst c s).gas = s.gas := rfl
@[simp] theorem driveFirst_temp (c : BusCycle) : (driveFirst c s).temp = s.temp := rfl
@[simp] theorem driveFirst_hum (c : BusCycle) : (driveFirst c s).hum = s.hum := rfl
@[simp] theorem driveFirst_led (c : BusCycle) : (driveFirst c s).led = s.led := rfl
@[simp] theorem driveFirst_host (c : BusCycle) : (driveFirst c s).host = c :: s.host := rfl
@[simp] theorem driveFirst_rdata (c : BusCycle) : (driveFirst c s).rdata = s.rdata := rfl

@[simp] theorem resetBlock_fbuf : (resetBlock s).fbuf = State.reset.fbuf := rfl
@[simp] theorem resetBlock_flen : (resetBlock s).flen = State.reset.flen := rfl
@[simp] theorem resetBlock_hdr0 : (resetBlock s).hdr0 = State.reset.hdr0 := rfl
@[simp] theorem resetBlock_hdr1 : (resetBlock s).hdr1 = State.reset.hdr1 := rfl
@[simp] theorem resetBlock_cmd : (resetBlock s).cmd = State.reset.cmd := rfl
@[simp] theorem resetBlock_status : (resetBlock s).status = State.reset.status := rfl
@[simp] theorem resetBlock_calcReg : (resetBlock s).calcReg = State.reset.calcReg := rfl
@[simp] theorem resetBlock_gas : (resetBlock s).gas = State.reset.gas := rfl
@[simp] theorem resetBlock_temp : (resetBlock s).temp = State.reset.temp := rfl
@[simp] theorem resetBlock_hum : (resetBlock s).hum = State.reset.hum := rfl
@[simp] theorem resetBlock_led : (resetBlock s).led = State.reset.led := rfl
@[simp] theorem resetBlock_host : (resetBlock s).host = s.host := rfl
@[simp] theorem resetBlock_rdata : (resetBlock s).rdata = State.reset.rdata := rfl

end Sys2Proof.Machine
end

