-- ==== Sys2Proof/Laws/Ops.lean ====
section
/-! SUPPORT. One lemma per shared operation saying what it can do: frame reads, the checksum, a check, the
checksum stage, the decoder, the step. -/

namespace Sys2Proof.Machine

variable {s t : State}

/-! ### Frame bytes and sums -/

theorem fbufAt_of_lt {i : Nat} (h : i < 13) : fbufAt s i = s.fbuf[i] := by
  simp [fbufAt, Vector.getElem?_eq_getElem h]

@[simp] theorem fbufAt_setErr (e : ErrCode) (i : Nat) : fbufAt (setErr e s) i = fbufAt s i := rfl
@[simp] theorem fbufAt_setCalc (c : Byte) (i : Nat) : fbufAt (setCalc c s) i = fbufAt s i := rfl
@[simp] theorem fbufAt_storeCmd (v : Byte) (i : Nat) : fbufAt (storeCmd v s) i = fbufAt s i := rfl
@[simp] theorem fbufAt_beginCycle (i : Nat) : fbufAt (beginCycle s) i = fbufAt s i := rfl

theorem fbufAt_setFbuf_self {i : Nat} (h : i < 13) (v : Byte) : fbufAt (setFbuf i v s) i = v := by
  rw [fbufAt_of_lt h]; simp [setFbuf]

theorem fbufAt_setFbuf_ne {i j : Nat} (h : i ≠ j) (v : Byte) : fbufAt (setFbuf i v s) j = fbufAt s j := by
  simp [fbufAt, setFbuf, h]

/-- A sum depends only on the bytes it covers. -/
theorem sumFrom_congr {a n : Nat} (h : ∀ k, a ≤ k → k < a + n → fbufAt s k = fbufAt t k) :
    sumFrom s a n = sumFrom t a n := by
  induction n with
  | zero => rfl
  | succ n ih =>
    simp only [sumFrom]
    rw [ih (fun k h1 h2 => h k h1 (by omega)), h (a + n) (by omega) (by omega)]

/-- The exact sum of `n` bytes is the sum of the corresponding slice of the frame buffer. -/
theorem sumFrom_eq_slice {a n : Nat} (h : a + n ≤ 13) :
    sumFrom s a n = (((s.fbuf.toList.drop a).take n).map BitVec.toNat).sum := by
  induction n with
  | zero => simp [sumFrom]
  | succ n ih =>
    have hlt : n < (s.fbuf.toList.drop a).length := by simp; omega
    rw [List.take_add_one, List.getElem?_eq_getElem hlt]
    simp [sumFrom, ih (by omega), fbufAt_of_lt (show a + n < 13 by omega)]

/-- Narrowing an exact byte sum is summing in eight bits. -/
theorem ofNat_sum_toNat (l : List Byte) : BitVec.ofNat 8 (l.map BitVec.toNat).sum = l.sum := by
  induction l with
  | nil => rfl
  | cons b l ih => simp [BitVec.ofNat_add, ih]

theorem sum8_lt (a b : Nat) : sum8 s a b < 256 := Nat.mod_lt _ (by decide)

/-- The checksum is the two's-complement negative of the narrowed sum (40_checksum.md R55). -/
theorem ck_eq_neg (a b : Nat) : ck s a b = - BitVec.ofNat 8 (sumFrom s a (b + 1 - a)) := by
  apply BitVec.eq_of_toNat_eq
  simp [ck, sum8, BitVec.toNat_neg]

/-- The checksum is the two's-complement negative of the slice's 8-bit sum. -/
theorem ck_eq_neg_slice {a b : Nat} (h : a + (b + 1 - a) ≤ 13) :
    ck s a b = - ((s.fbuf.toList.drop a).take (b + 1 - a)).sum := by
  rw [ck_eq_neg, sumFrom_eq_slice h, ofNat_sum_toNat]

theorem frameCk_congr {len : Nat} (h : ∀ k, 1 ≤ k → k < len - 1 → fbufAt s k = fbufAt t k) :
    frameCk s len = frameCk t len := by
  unfold frameCk
  rw [ck_eq_neg, ck_eq_neg, sumFrom_congr (fun k h1 h2 => h k h1 (by omega))]

/-- `be16(i) = 256 * FBUF[i] + FBUF[i+1]` (41_frame_parse.md R56). -/
theorem be16_toNat (i : Nat) : (be16 s i).toNat = 256 * (fbufAt s i).toNat + (fbufAt s (i + 1)).toNat := by
  rw [be16, BitVec.toNat_append, Nat.shiftLeft_eq, Nat.mul_comm, ← Nat.two_pow_add_eq_or_of_lt (by omega)]

/-- The LED code is 0, 1 or 2 (10_state.md R21). -/
theorem ledCode_cases (b : Byte) : ledCode b = 0 ∨ ledCode b = 1 ∨ ledCode b = 2 := by
  unfold ledCode
  split
  · exact .inr (.inl rfl)
  · split
    · exact .inl rfl
    · exact .inr (.inr rfl)

/-! ### Register views -/

theorem hiByte_toNat (h : Half) : (hiByte h).toNat = h.toNat / 256 := by
  have := h.isLt
  simp [hiByte, Nat.shiftRight_eq_div_pow]
  omega

theorem loByte_toNat (h : Half) : (loByte h).toNat = h.toNat % 256 := by simp [loByte]

theorem statusView_toNat (s : State) : (statusView s).toNat = s.status.toNat % 8 :=
  (by decide : ∀ v : Byte, (0#5 ++ v.extractLsb' 0 3 : Byte).toNat = v.toNat % 8) s.status

theorem ledView_toNat (s : State) : (ledView s).toNat = s.led.toNat % 4 :=
  (by decide : ∀ v : Byte, (0#6 ++ v.extractLsb' 0 2 : Byte).toNat = v.toNat % 4) s.led

theorem busRead_fbuf {a : Byte} (h : a.toNat < 13) : busRead a s = s.fbuf[a.toNat] := by
  rw [busRead, if_pos h, fbufAt_of_lt h]

/-! ### Checks -/

@[simp] theorem require_true (e : ErrCode) (rest : State → State) : require true e rest s = rest s := rfl
@[simp] theorem require_false (e : ErrCode) (rest : State → State) :
    require false e rest s = raiseError e s := rfl

/-- All a check can do: run the rest, or raise its code. -/
theorem require_cases (ok : Bool) (e : ErrCode) (rest : State → State) :
    (ok = true ∧ require ok e rest s = rest s) ∨ (ok = false ∧ require ok e rest s = raiseError e s) := by
  cases ok <;> simp

/-- All the checksum stage can do: CALC gets the wanted checksum, then the rest runs or CHECKSUM is raised. -/
theorem checksumStage_cases (len : Nat) (rest : State → State) :
    (fbufAt s (len - 1) = frameCk s len ∧ checksumStage len rest s = rest (setCalc (frameCk s len) s)) ∨
    (fbufAt s (len - 1) ≠ frameCk s len ∧
      checksumStage len rest s = setErr .checksum (setCalc (frameCk s len) s)) := by
  by_cases h : fbufAt s (len - 1) = frameCk s len
  · left; simp [checksumStage, h]
  · right
    have hb : (fbufAt s (len - 1) == frameCk s len) = false := by simp [h]
    exact ⟨h, by simp only [checksumStage, hb]; rfl⟩

theorem lengthIs_iff {len : Nat} : lengthIs len s = true ↔ s.flen.toNat = len := by simp [lengthIs]

theorem headIs_iff {h0 h1 : Byte} : headIs h0 h1 s = true ↔ fbufAt s 0 = h0 ∧ fbufAt s 1 = h1 := by
  simp [headIs]

/-! ### Operations, decoder, step -/

/-- Every operation answers a next state in every state. -/
theorem exec_next (i : Instr) (s : State) : ∃ t, exec i s = .next t := by
  cases i <;> exact ⟨_, rfl⟩

/-- All the decoder can answer with an instruction. -/
theorem decode_cases {v : Byte} {i : Instr} (h : decode v = .ok i) :
    (v = 0x01 ∧ i = .ckgen) ∨
    (∃ elen hen, i = .validate elen hen ∧ elenLegal elen = true ∧ elen = elenField v ∧ hen = henField v ∧
      opField v = 2) ∨
    (v = 0x03 ∧ i = .pcomb) ∨ (v = 0x04 ∧ i = .pstat) ∨ (v = 0x05 ∧ i = .pconf) := by
  have plain : ∀ v : Byte, operandBits v = 0 → v.toNat = (opField v).toNat := by decide
  unfold decode at h
  split at h
  case h_2 ho =>
    simp only [decodeValidate] at h
    split at h
    · exact .inr (.inl ⟨elenField v, henField v, by injection h with h; exact h.symm, ‹_›, rfl, rfl,
        BitVec.eq_of_toNat_eq ho⟩)
    · cases h
  case h_6 => cases h
  all_goals
    rename_i ho
    simp only [decodePlain] at h
    split at h
    · rename_i hz
      injection h with h
      have hv := (plain v hz).trans ho
      subst h
      simp [← BitVec.toNat_inj, hv]
    · cases h

/-- All a step can answer: reset, the refusal, a CMD write, a plain write, a read, or nothing. -/
theorem step_cases (s : State) :
    ((currentCycle s).rst = true ∧ step s = .next (resetBlock (beginCycle s))) ∨
    ((currentCycle s).rst = false ∧ (currentCycle s).wr = true ∧ (currentCycle s).rd = true ∧
      step s = .refused .bothStrobes) ∨
    ((currentCycle s).rst = false ∧ (currentCycle s).wr = true ∧ (currentCycle s).rd = false ∧
      (currentCycle s).addr = cmdAddr ∧ step s = cmdWrite (currentCycle s).wdata (beginCycle s)) ∨
    ((currentCycle s).rst = false ∧ (currentCycle s).wr = true ∧ (currentCycle s).rd = false ∧
      (currentCycle s).addr ≠ cmdAddr ∧
      step s = .next (storeReg (currentCycle s).addr (currentCycle s).wdata (beginCycle s))) ∨
    ((currentCycle s).rst = false ∧ (currentCycle s).wr = false ∧ (currentCycle s).rd = true ∧
      step s = .next (driveRdata (currentCycle s).addr (beginCycle s))) ∨
    ((currentCycle s).rst = false ∧ (currentCycle s).wr = false ∧ (currentCycle s).rd = false ∧
      step s = .next (beginCycle s)) := by
  unfold step busCycle busWrite
  generalize currentCycle s = c
  rcases c with ⟨rst, wr, rd, a, v⟩
  cases rst <;> cases wr <;> cases rd <;> by_cases h : a = cmdAddr <;> simp [h]

/-- The cycle served and the state it is served in, for a host list that is not empty. -/
theorem currentCycle_cons {c : BusCycle} {rest : List BusCycle} (h : s.host = c :: rest) :
    currentCycle s = c := by simp [currentCycle, h]

theorem beginCycle_cons {c : BusCycle} {rest : List BusCycle} (h : s.host = c :: rest) :
    beginCycle s = { s with host := rest, rdata := none } := by simp [beginCycle, h]

/-- A read cycle's step. -/
theorem step_read {a : Byte} {rest : List BusCycle} (h : s.host = readCycle a :: rest) :
    step s = .next (driveRdata a (beginCycle s)) := by
  simp [step, currentCycle, h, busCycle, readCycle]

/-- A write cycle's step, to any address but CMD. -/
theorem step_write {a v : Byte} {rest : List BusCycle} (h : s.host = writeCycle a v :: rest)
    (ha : a ≠ cmdAddr) : step s = .next (storeReg a v (beginCycle s)) := by
  simp [step, currentCycle, h, busCycle, writeCycle, busWrite, ha]

/-- A CMD write cycle's step. -/
theorem step_cmdWrite {v : Byte} {rest : List BusCycle} (h : s.host = writeCycle cmdAddr v :: rest) :
    step s = cmdWrite v (beginCycle s) := by
  simp [step, currentCycle, h, busCycle, writeCycle, busWrite]

/-- A run goes on from the state its first step answers. -/
theorem run_succ_of_next {k : Nat} (h : step s = .next t) :
    Host.Core.run core (k + 1) s = Host.Core.run core k t := by
  simp [Host.Core.run, core, h]

@[simp] theorem run_zero : Host.Core.run core 0 s = .next s := rfl

/-- A read depends on the block's registers only, not on what the host drives nor on the read-data port. -/
theorem busRead_ports (a : Byte) (h : List BusCycle) (r : Option Byte) :
    busRead a { s with host := h, rdata := r } = busRead a s := rfl

@[simp] theorem busRead_beginCycle (a : Byte) : busRead a (beginCycle s) = busRead a s := rfl

/-- A write to any address but CMD changes FBUF, FLEN, HDR0 and HDR1 at most. -/
theorem storeReg_keeps (a v : Byte) (s : State) :
    ∃ f n h0 h1, storeReg a v s = { s with fbuf := f, flen := n, hdr0 := h0, hdr1 := h1 } := by
  unfold storeReg
  split
  · exact ⟨_, s.flen, s.hdr0, s.hdr1, rfl⟩
  · split
    · exact ⟨s.fbuf, _, s.hdr0, s.hdr1, rfl⟩
    · exact ⟨s.fbuf, s.flen, _, s.hdr1, rfl⟩
    · exact ⟨s.fbuf, s.flen, s.hdr0, _, rfl⟩
    · exact ⟨s.fbuf, s.flen, s.hdr0, s.hdr1, rfl⟩

/-- Every CMD write answers a next state. -/
theorem cmdWrite_next (v : Byte) (s : State) : ∃ t, cmdWrite v s = .next t := by
  unfold cmdWrite
  split
  · exact exec_next _ _
  · exact ⟨_, rfl⟩

end Sys2Proof.Machine
end

