-- ==== Sys2Proof/Laws/PerInstr.lean ====
section
/-! SUPPORT. Facts stated for every instruction, one lemma per constructor. -/

namespace Sys2Proof.Laws.EncodeFields

/-- OP of an instruction (30_encoding.md R42). -/
def opOf : Instr → BitVec 3
  | .ckgen => 1
  | .validate _ _ => 2
  | .pcomb => 3
  | .pstat => 4
  | .pconf => 5

/-- ELEN and HEN of an instruction, 0 for every operation but VALIDATE (30_encoding.md R41). -/
def operandsOf : Instr → BitVec 4 × Bool
  | .validate elen hen => (elen, hen)
  | .ckgen => (0, false)
  | .pcomb => (0, false)
  | .pstat => (0, false)
  | .pconf => (0, false)

/-- The encoder puts OP, HEN and ELEN where 30_encoding.md R41 says. -/
def Statement (i : Instr) : Prop :=
  opField (encode i) = opOf i ∧ elenField (encode i) = (operandsOf i).1 ∧ henField (encode i) = (operandsOf i).2

theorem ckgen : Statement .ckgen := by unfold Statement; decide
theorem validate (elen : BitVec 4) (hen : Bool) : Statement (.validate elen hen) := by
  revert elen hen; unfold Statement; decide
theorem pcomb : Statement .pcomb := by unfold Statement; decide
theorem pstat : Statement .pstat := by unfold Statement; decide
theorem pconf : Statement .pconf := by unfold Statement; decide

end Sys2Proof.Laws.EncodeFields
end

