-- ==== Sys2Proof/Tests/Slice0.lean ====
section
/-! SUPPORT. The model's own tests: well-formedness, decoding, one step per test against the spec's vectors
(95_test_vectors.md), and for each statement with hypotheses a state and operands that meet them. -/

namespace Sys2Proof.Tests

open Sys2Proof.Machine Sys2Proof.Machine.Spec

/-! ### Well-formedness -/

theorem test_wf_refuses_length_0 : ¬ (Instr.validate 0 false).WellFormed := by decide
theorem test_wf_refuses_length_1 : ¬ (Instr.validate 1 true).WellFormed := by decide
theorem test_wf_refuses_length_14 : ¬ (Instr.validate 14 false).WellFormed := by decide
theorem test_wf_refuses_length_15 : ¬ (Instr.validate 15 true).WellFormed := by decide
theorem test_wf_bounds : (Instr.validate 2 true).WellFormed ∧ (Instr.validate 13 false).WellFormed := by decide

/-! ### Decoding: words written out from 30_encoding.md R41, R42 and opcode_table.json -/

theorem test_decode_ckgen : decode 0b00000001 = .ok .ckgen := by decide
theorem test_decode_validate_9 : decode 0b10010010 = .ok (.validate 9 false) := by decide
theorem test_decode_validate_2_h : decode 0b00101010 = .ok (.validate 2 true) := by decide
theorem test_decode_validate_13_h : decode 0b11011010 = .ok (.validate 13 true) := by decide
theorem test_decode_pcomb : decode 0b00000011 = .ok .pcomb := by decide
theorem test_decode_pstat : decode 0b00000100 = .ok .pstat := by decide
theorem test_decode_pconf : decode 0b00000101 = .ok .pconf := by decide

/-- 95_test_vectors.md V40 to V47: each illegal byte is rejected under its name. -/
theorem test_decode_illegal :
    decode 0x00 = .error .unassignedOp ∧ decode 0x06 = .error .unassignedOp ∧
    decode 0x07 = .error .unassignedOp ∧ decode 0x0B = .error .operandBitsSet ∧
    decode 0x83 = .error .operandBitsSet ∧ decode 0x09 = .error .operandBitsSet ∧
    decode 0x12 = .error .illegalLength ∧ decode 0x02 = .error .illegalLength ∧
    decode 0xE2 = .error .illegalLength ∧ decode 0xFA = .error .illegalLength := by decide

/-- Exactly 28 bytes are legal (30_encoding.md R42). -/
theorem test_28_legal_bytes :
    ((List.range 256).filter (fun n => (decodeTableWord 8 n).isSome)).length = 28 := by decide

/-! ### Helpers -/

/-- The reset state with a frame, a length and a header loaded. -/
def loaded (f : Vector Byte 13) (n : Byte) (h0 h1 : Byte := 0) : State :=
  { State.reset with fbuf := f, flen := n, hdr0 := h0, hdr1 := h1 }

/-- The next state of an outcome. -/
def nextState : Host.Outcome State Fault Refusal → Option State
  | .next t => some t
  | .fault _ => none
  | .refused _ => none

/-- What an operation leaves in the registers only operations write. -/
structure Results where
  status : Byte
  calcReg : Byte
  gas : Half
  temp : Half
  hum : Half
  led : Byte
deriving DecidableEq, Repr

/-- The results after one operation. -/
def resultsOf (i : Instr) (s : State) : Option Results :=
  (nextState (exec i s)).map (fun t => ⟨t.status, t.calcReg, t.gas, t.temp, t.hum, t.led⟩)

/-- What a read of `a` returns in one step. -/
def readOf (a : Byte) (s : State) : Option Byte :=
  (nextState (step (driveFirst (readCycle a) s))).bind (·.rdata)

/-- The state after a write in one step. -/
def writeOf (a v : Byte) (s : State) : Option State := nextState (step (driveFirst (writeCycle a v) s))

/-- 95_test_vectors.md E3, V20. -/
def combined : Vector Byte 13 :=
  #v[0xFF, 0x87, 0x00, 0x32, 0x00, 0x00, 0x00, 0x00, 0x00, 0xC8, 0x01, 0x90, 0xEE]

/-- 95_test_vectors.md V25, whose temperature is negative. -/
def combinedNegative : Vector Byte 13 :=
  #v[0xFF, 0x87, 0x12, 0x34, 0x00, 0x00, 0x00, 0x00, 0xFF, 0x38, 0x27, 0x10, 0xC5]

/-- 95_test_vectors.md V30. -/
def statusUnknown : Vector Byte 13 :=
  #v[0xFF, 0x8A, 0xAA, 0x00, 0x00, 0x00, 0x00, 0x00, 0xCC, 0x00, 0x00, 0x00, 0x00]

/-- 95_test_vectors.md V35. -/
def okReply : Vector Byte 13 :=
  #v[0x4F, 0x4B, 0x00, 0x00, 0x00, 0x00, 0x00, 0x00, 0x00, 0x00, 0x00, 0x00, 0x00]

/-- 95_test_vectors.md V9 with its checksum. -/
def command : Vector Byte 13 :=
  #v[0xFF, 0x01, 0x87, 0x00, 0x00, 0x00, 0x00, 0x00, 0x78, 0x00, 0x00, 0x00, 0x00]

/-- A state whose registers all differ, with reserved bits set in STATUS and LED, to read addresses from. -/
def distinct : State where
  fbuf := #v[0xA0, 0xA1, 0xA2, 0xA3, 0xA4, 0xA5, 0xA6, 0xA7, 0xA8, 0xA9, 0xAA, 0xAB, 0xAC]
  flen := 0x10
  hdr0 := 0x11
  hdr1 := 0x12
  cmd := 0x13
  status := 0xFD
  calcReg := 0x15
  gas := 0x1617
  temp := 0x1819
  hum := 0x1A1B
  led := 0xFE
  host := []
  rdata := none

/-! ### Operations against the spec's vectors -/

/-- V9. -/
theorem test_ckgen_vector :
    resultsOf .ckgen (loaded (command.set 8 0) 0) = some ⟨0, 0x78, 0, 0, 0, 0⟩ ∧
    (nextState (exec .ckgen (loaded (command.set 8 0) 0))).map (·.fbuf) = some command := by decide

/-- V10: byte 0 is not summed; FF x 7 gives 07. -/
theorem test_ckgen_all_ff :
    (nextState (exec .ckgen (loaded (Vector.replicate 13 0xFF) 0))).map (·.fbuf[8]) = some 0x07 := by decide

/-- V17, V18: with the header check, the right and a wrong HDR1. -/
theorem test_validate_header :
    resultsOf (.validate 13 true) (loaded combined 13 0xFF 0x87) = some ⟨0, 0xEE, 0, 0, 0, 0⟩ ∧
    resultsOf (.validate 13 true) (loaded combined 13 0xFF 0x86) = some ⟨2, 0, 0, 0, 0, 0⟩ := by decide

/-- V14, V15, V19, V19a: LENGTH first, FLEN above the buffer, and the empty range of L = 2. -/
theorem test_validate_lengths :
    resultsOf (.validate 9 false) (loaded combined 13) = some ⟨1, 0, 0, 0, 0, 0⟩ ∧
    resultsOf (.validate 13 false) (loaded combined 14) = some ⟨1, 0, 0, 0, 0, 0⟩ ∧
    resultsOf (.validate 2 false) (loaded okReply 2) = some ⟨3, 0, 0, 0, 0, 0⟩ ∧
    resultsOf (.validate 2 false) (loaded (okReply.set 1 0) 2) = some ⟨0, 0, 0, 0, 0, 0⟩ := by decide

/-- V20, V25. -/
theorem test_pcomb_fields :
    resultsOf .pcomb (loaded combined 13) = some ⟨0, 0xEE, 0x0032, 0x00C8, 0x0190, 0⟩ ∧
    resultsOf .pcomb (loaded combinedNegative 13) = some ⟨0, 0xC5, 0x1234, 0xFF38, 0x2710, 0⟩ := by decide

/-- V21, V23, V24: short, header before checksum, checksum with CALC written. -/
theorem test_pcomb_failures :
    resultsOf .pcomb (loaded combined 11) = some ⟨1, 0, 0, 0, 0, 0⟩ ∧
    resultsOf .pcomb (loaded ((combined.set 0 0).set 12 0) 13) = some ⟨2, 0, 0, 0, 0, 0⟩ ∧
    resultsOf .pcomb (loaded (combined.set 12 0xEF) 13) = some ⟨3, 0xEE, 0, 0, 0, 0⟩ := by decide

/-- V30, V34. -/
theorem test_pstat_led :
    resultsOf .pstat (loaded statusUnknown 9) = some ⟨0, 0xCC, 0, 0, 0, 2⟩ ∧
    resultsOf .pstat (loaded (((statusUnknown.set 0 0).set 2 1).set 8 0x75) 9) = some ⟨0, 0x75, 0, 0, 0, 1⟩ := by
  decide

/-- V32, V33. -/
theorem test_pstat_failures :
    resultsOf .pstat (loaded ((statusUnknown.set 2 1).set 8 0x76) 9) = some ⟨3, 0x75, 0, 0, 0, 0⟩ ∧
    resultsOf .pstat (loaded statusUnknown 13) = some ⟨1, 0, 0, 0, 0, 0⟩ := by decide

/-- V35, V37, V38. -/
theorem test_pconf :
    resultsOf .pconf (loaded okReply 2) = some ⟨0, 0, 0, 0, 0, 0⟩ ∧
    resultsOf .pconf (loaded ((okReply.set 0 0x4B).set 1 0x4F) 2) = some ⟨4, 0, 0, 0, 0, 0⟩ ∧
    resultsOf .pconf (loaded okReply 9) = some ⟨1, 0, 0, 0, 0, 0⟩ := by decide

/-! ### Bus steps -/

/-- Every kind of address, with its boundary values (20_memory.md R26): reserved bits and addresses read 0. -/
theorem test_read_map :
    [0x00, 0x0C, 0x0D, 0x0F, 0x10, 0x11, 0x12, 0x13, 0x14, 0x15, 0x16, 0x17, 0x18, 0x19, 0x1A, 0x1B, 0x1C,
      0x1D, 0xFF].map (fun a => readOf a distinct) =
    [0xA0, 0xAC, 0x00, 0x00, 0x10, 0x11, 0x12, 0x13, 0x05, 0x15, 0x16, 0x17, 0x18, 0x19, 0x1A, 0x1B, 0x02,
      0x00, 0x00].map some := by decide

/-- Writes at the boundaries of each clause of 20_memory.md R31. -/
theorem test_write_map :
    (writeOf 0x00 0x55 distinct).map (·.fbuf[0]) = some 0x55 ∧
    (writeOf 0x0C 0x55 distinct).map (·.fbuf[12]) = some 0x55 ∧
    (writeOf 0x10 0x55 distinct).map (·.flen) = some 0x55 ∧
    (writeOf 0x11 0x55 distinct).map (·.hdr0) = some 0x55 ∧
    (writeOf 0x12 0x55 distinct).map (·.hdr1) = some 0x55 ∧
    [0x0D, 0x0F, 0x14, 0x1C, 0x1D, 0xFF].map (fun a => writeOf a 0x55 distinct) =
      [distinct, distinct, distinct, distinct, distinct, distinct].map some := by decide

/-- V40 and P4 line 4: an illegal byte leaves CMD and STATUS changed, nothing else. -/
theorem test_illegal_command :
    writeOf 0x13 0x00 (loaded combined 13) = some { loaded combined 13 with cmd := 0x00, status := 0x05 } := by
  decide

/-- V53: reading CMD performs nothing. -/
theorem test_read_cmd_starts_nothing :
    nextState (step (driveFirst (readCycle 0x13) { loaded combined 13 with cmd := 0x03 })) =
      some { loaded combined 13 with cmd := 0x03, rdata := some 0x03 } := by decide

/-- V54: a reset step clears every register. -/
theorem test_reset_step : nextState (step (driveFirst resetCycle distinct)) = some State.reset := by decide

/-- A table word placed for the fetch is run by the first step after reset. -/
theorem test_fetch_word_after_reset :
    (nextState (step (State.reset.withFetchWord 8 0x05))).map (fun t => (t.cmd, t.status)) = some (0x05, 1) ∧
    (nextState (step (State.reset.withFetchWord 8 0x01))).map (fun t => (t.cmd, t.status)) = some (0x01, 0) := by
  decide

/-! ### Host syntax and readings -/

/-- P2 line 4: RD16 expands high byte first (30_encoding.md R47). -/
theorem test_rd16 : assembleLine (.rd16 0x16) = .ok [readCycle 0x16, readCycle 0x17] := by decide

/-- FRAME writes FLEN last; a line out of range is refused (30_encoding.md R46, R47). -/
theorem test_assembler :
    assemble [.frame [0x4F, 0x4B], .pconf] =
      .ok [writeCycle 0x00 0x4F, writeCycle 0x01 0x4B, writeCycle 0x10 0x02, writeCycle 0x13 0x05] ∧
    assemble [.validate 14 true] = .error .validateLength ∧
    assemble [.frame (List.replicate 14 0)] = .error .frameTooLong ∧
    assemble [.rd16 0x17] = .error .rd16Address := by decide

/-- 95_test_vectors.md V25, V26: FF38 is -200 hundredths, 8000 is -32768. -/
theorem test_temperature_sign :
    tempHundredths { State.reset with temp := 0xFF38 } = -200 ∧
    tempHundredths { State.reset with temp := 0x8000 } = -32768 := by decide

/-! ### Witnesses: the hypotheses of each statement can be met -/

/-- A host list whose first cycle is a write. -/
def writing (a v : Byte) : State := driveFirst (writeCycle a v) (loaded combined 13)

theorem witness_ResetClearsEveryRegister :
    ∃ (s : State) (c : BusCycle) (rest : List BusCycle), s ≠ State.reset ∧
      s.host = c :: rest ∧ c.rst = true ∧ (c.wr && c.rd) = false :=
  ⟨driveFirst ⟨true, true, false, 0x13, 0x03⟩ distinct, ⟨true, true, false, 0x13, 0x03⟩, [], by decide⟩

theorem witness_ResetWinsOverBothStrobes :
    ∃ (s : State) (c : BusCycle) (rest : List BusCycle),
      s.host = c :: rest ∧ c.rst = true ∧ c.wr = true ∧ c.rd = true :=
  ⟨driveFirst ⟨true, true, true, 0x13, 0x03⟩ distinct, ⟨true, true, true, 0x13, 0x03⟩, [], by decide⟩

theorem witness_ReadReturnsTheAddressedByte :
    ∀ a ∈ [0x00#8, 0x0C, 0x0D, 0x0F, 0x10, 0x11, 0x12, 0x13, 0x14, 0x15, 0x16, 0x17, 0x18, 0x19, 0x1A, 0x1B, 0x1C,
      0x1D, 0xFF], (driveFirst (readCycle a) distinct).host = ⟨false, false, true, a, 0⟩ :: [] := by decide

theorem witness_WriteFollowsTheAddressMap :
    (∀ a ∈ [0x00#8, 0x0C, 0x0D, 0x0F, 0x10, 0x11, 0x12, 0x13, 0x14, 0x1C, 0x1D, 0xFF],
      (driveFirst (writeCycle a 0x55) distinct).host = ⟨false, true, false, a, 0x55⟩ :: []) ∧
    decode 0xDA = .ok (.validate 13 true) ∧ decode 0xE2 = .error .illegalLength := by decide

theorem witness_StepRunsTheDecodedOperation :
    (writing 0x13 0x2A).host = ⟨false, true, false, 0x13, 0x2A⟩ :: [] ∧
    decode 0x2A = .ok (.validate 2 true) ∧ (Instr.validate 2 true).WellFormed := by decide

theorem witness_FetchWordRunsTheTableOperation :
    (0xDA : Nat) < 256 ∧ decodeTableWord 8 0xDA = some (.validate 13 true) := by decide

theorem witness_BothStrobesAreRefused :
    (driveFirst ⟨false, true, true, 0x10, 0x01⟩ State.reset).host = ⟨false, true, true, 0x10, 0x01⟩ :: [] := by
  decide

theorem witness_IdleCycleChangesNoRegister :
    State.reset.host = [] ∧ (driveFirst idleCycle distinct).host = ⟨false, false, false, 0, 0⟩ :: [] := by decide

theorem witness_BlockNeverStopsUnderTheContract :
    HostWithinContract { distinct with host := [writeCycle 0x13 0xDA, ⟨true, true, true, 0, 0⟩, readCycle 0x14] } := by
  unfold HostWithinContract; decide

theorem witness_OnlyCommandsAndResetChangeResults :
    ∀ c ∈ [writeCycle 0x14 0x05, writeCycle 0x12 0x03, readCycle 0x13, idleCycle],
      (driveFirst c distinct).host = c :: [] ∧ c.rst = false ∧ (c.wr && c.rd) = false ∧
      ¬ (c.wr = true ∧ c.addr = 0x13) := by decide

/-- Every pair of addresses has such a host list; the clauses' boundary addresses are not CMD. -/
theorem witness_ReadAfterWriteReturnsTheLatestByte :
    (∀ a v b : Byte, (driveFirst (writeCycle a v) (driveFirst (readCycle b) distinct)).host =
      writeCycle a v :: readCycle b :: []) ∧
    (∀ a ∈ [0x00#8, 0x0C, 0x0D, 0x0F, 0x10, 0x12, 0x14, 0xFF], a ≠ 0x13) :=
  ⟨fun _ _ _ => rfl, by decide⟩

theorem witness_ReadAfterCommandSeesItsResults :
    Instr.pcomb.WellFormed ∧
    (driveFirst (writeCycle 0x13 (encode .pcomb)) (driveFirst (readCycle 0x17) (loaded combined 13))).host =
      writeCycle 0x13 (encode .pcomb) :: readCycle 0x17 :: [] := by decide

/-- A boundary byte of each group of illegal bytes: OP 0, 6 and 7, operand bits set, ELEN 0, 1, 14 and 15. -/
theorem witness_IllegalCommandSetsErrFiveOnly :
    (writing 0x13 0xFF).host = ⟨false, true, false, 0x13, 0xFF⟩ :: [] ∧
    (0xF8#8).toNat % 8 = 0 ∧ (0xFE#8).toNat % 8 = 6 ∧ (0xFF#8).toNat % 8 = 7 ∧
    ((0x09#8).toNat % 8 = 1 ∧ (0x09#8).toNat / 8 ≠ 0) ∧ ((0xFD#8).toNat % 8 = 5 ∧ (0xFD#8).toNat / 8 ≠ 0) ∧
    ((0x0A#8).toNat % 8 = 2 ∧ (0x0A#8).toNat / 16 = 0) ∧ ((0x1A#8).toNat % 8 = 2 ∧ (0x1A#8).toNat / 16 = 1) ∧
    ((0xE2#8).toNat % 8 = 2 ∧ (0xE2#8).toNat / 16 = 14) ∧ ((0xFA#8).toNat % 8 = 2 ∧ (0xFA#8).toNat / 16 = 15) := by
  decide

theorem witness_DecodeInvertsEncode : (Instr.validate 2 false).WellFormed ∧ (Instr.validate 13 true).WellFormed := by
  decide

theorem witness_EncodeInvertsDecode : decode 0x22 = .ok (.validate 2 false) ∧ decode 0x05 = .ok .pconf := by decide

/-- b at both ends, and a range that is empty because b is below a. -/
theorem witness_ChecksumIsTwosComplementOfByteSum :
    (12 < 13 ∧ sum8 (loaded combined 13) 1 12 = 0) ∧ (0 < 13 ∧ 0 < 1) ∧ sum8 (loaded combined 13) 1 0 = 0 := by
  decide

/-- Lengths 2 and 13, and a frame for each of the four outcomes. -/
theorem witness_ValidateOutcome :
    ((2#4).toNat - 1 < 13 ∧ 2 ≤ (2#4).toNat) ∧ ((13#4).toNat - 1 < 13 ∧ 2 ≤ (13#4).toNat) ∧
    resultsOf (.validate 13 false) (loaded (combined.set 12 0) 13) = some ⟨3, 0xEE, 0, 0, 0, 0⟩ ∧
    resultsOf (.validate 13 false) (loaded combined 13) = some ⟨0, 0xEE, 0, 0, 0, 0⟩ := by decide

theorem witness_ValidateWithoutEncodingIsIllegal : (1#4).toNat < 2 ∧ 13 < (14#4).toNat := by decide

theorem witness_ValidatePassesIffCoveredSumIsZero :
    2 ≤ (13#4).toNat ∧ (13#4).toNat ≤ 13 ∧ (loaded combined 13).flen.toNat = (13#4).toNat ∧
    (bytesFrom (loaded combined 13) 1 12).sum = 0 ∧ (bytesFrom (loaded (combined.set 3 0) 13) 1 12).sum ≠ 0 := by decide

/-- Bytes 2 and 3 swapped. -/
theorem witness_ReorderedBytesAreNotDetected :
    List.Perm (((combined.set 2 0x32).set 3 0).toList.drop 1 |>.take ((13#4).toNat - 2))
      (bytesFrom (loaded combined 13) 1 ((13#4).toNat - 2)) ∧
    ((combined.set 2 0x32).set 3 0).toList.drop ((13#4).toNat - 1) =
      (loaded combined 13).fbuf.toList.drop ((13#4).toNat - 1) := by decide

theorem witness_SingleByteChangeIsDetected :
    ∃ t, exec (.validate 13 false) (loaded combined 13) = .next t ∧ t.status = 0 ∧
      1 ≤ (12 : Fin 13).val ∧ (12 : Fin 13).val < (13#4).toNat ∧ (12 : Fin 13) ≠ 1 ∧
      (0x00 : Byte) ≠ (loaded combined 13).fbuf[(12 : Fin 13)] :=
  ⟨_, rfl, by decide⟩

theorem witness_StartByteNeverAffectsTheChecksum :
    (∃ elen, Instr.validate 9 false = .validate elen false) ∧
    resultsOf (.validate 9 false) (withByte (loaded command 9) 0 0) = some ⟨0, 0x78, 0, 0, 0, 0⟩ :=
  ⟨⟨9, rfl⟩, by decide⟩

theorem witness_GeneratedFrameAlwaysValidates :
    ∃ (s : State) (rest : List BusCycle),
      s.host = writeCycle 0x13 0x01 :: writeCycle 0x10 0x09 :: writeCycle 0x13 0x92 :: rest :=
  ⟨{ distinct with host := [writeCycle 0x13 0x01, writeCycle 0x10 0x09, writeCycle 0x13 0x92] }, [], rfl⟩

theorem witness_ResultAddressesReadAsTheFrameBytes :
    ∃ t, exec .pcomb (loaded combined 13) = .next t ∧ t.status = 0 := ⟨_, rfl, by decide⟩

theorem witness_OkReplyNeedsPconf :
    (loaded okReply 2).flen = 2 ∧ (loaded okReply 2).fbuf[0] = 0x4F ∧ (loaded okReply 2).fbuf[1] = 0x4B := by decide

theorem witness_OperationFrame :
    (Instr.validate 13 true).WellFormed ∧ (0x07#8) ∉ mayChange .ckgen ∧ (0x1C#8) ∉ mayChange .pcomb := by decide

theorem witness_FailingOperationWritesNoResult :
    ∃ t, exec .pcomb { distinct with fbuf := combined.set 12 0, flen := 13 } = .next t ∧ t.status = 3 :=
  ⟨_, rfl, by decide⟩

/-- Two states that differ in FBUF[9], HDR0 and HDR1, none of which PSTAT reads. -/
theorem witness_OperationReadsOnlyItsInputs :
    ∃ s s' : State, s ≠ s' ∧ Instr.pstat.WellFormed ∧ (readsFlen .pstat → s.flen = s'.flen) ∧
      (readsHeader .pstat → s.hdr0 = s'.hdr0 ∧ s.hdr1 = s'.hdr1) ∧
      (∀ (k : Nat) (h : k < 13), readsCell .pstat k → s.fbuf[k] = s'.fbuf[k]) := by
  refine ⟨loaded statusUnknown 9, loaded (statusUnknown.set 9 0x77) 9 1 2, by decide, by decide, fun _ => rfl,
    fun h => ?_, fun k h hk => ?_⟩
  · obtain ⟨_, h⟩ := h; cases h
  · have : 9 ≠ k := by obtain ⟨_, h8⟩ := hk; omega
    simp [loaded, Vector.getElem_set_ne, this]

theorem witness_FirstFailingCheckIsReported :
    (writing 0x13 0x03).host = writeCycle 0x13 0x03 :: [] ∧ decode 0x03 = .ok .pcomb ∧
    expectedFlen .pcomb = some 13 ∧ expectedFlen .ckgen = none ∧
    (writing 0x13 0x03).flen.toNat = 13 ∧ (writing 0x13 0x03).fbuf[12] = wantedChecksum (writing 0x13 0x03) 13 := by
  decide

/-- A frame for each clause: a wrong head and a wrong checksum. -/
theorem witness_FirstFailingCheck_clauses :
    headWrong .pcomb (loaded (combined.set 0 0) 13) ∧ headWrong .pconf (loaded combined 2) ∧
    headWrong (.validate 13 true) (loaded combined 13) ∧ ¬ headWrong .pcomb (loaded combined 13) ∧
    checksumWrong .pcomb (loaded (combined.set 12 0) 13) 13 ∧ ¬ checksumWrong .pcomb (loaded combined 13) 13 := by
  unfold headWrong checksumWrong; decide

theorem witness_SuccessMeansTheFrameIsValid :
    ∃ t, Instr.pcomb.WellFormed ∧ expectedFlen .pcomb = some 13 ∧
      exec .pcomb (loaded combined 13) = .next t ∧ t.status = 0 := ⟨_, by decide, rfl, rfl, by decide⟩

/-- A step that changes GAS, and one that changes LED. -/
theorem witness_ResultsChangeOnlyByASuccessfulParse :
    (∃ t, step (writing 0x13 0x03) = .next t ∧ t.gas ≠ (writing 0x13 0x03).gas) ∧
    (∃ t, step (driveFirst (writeCycle 0x13 0x04) (loaded statusUnknown 9)) = .next t ∧ t.led ≠ 0) :=
  ⟨⟨_, rfl, by decide⟩, ⟨_, rfl, by decide⟩⟩

/-- A legal state after an operation: CMD holds PCOMB, STATUS the checksum code, LED Unknown. -/
theorem witness_StepKeepsLegalState :
    ∃ s t : State, LegalState s ∧ s.status = 3 ∧ step s = .next t ∧ t.status = 0 :=
  ⟨{ writing 0x13 0x03 with cmd := 0x03, status := 3, led := 2 }, _,
    ⟨.inl (by decide), .inr (.inr rfl)⟩, rfl, rfl, by decide⟩

theorem witness_LegalStateReadsLegalCodes :
    LegalState { State.reset with cmd := 0xFF, status := 5, led := 2 } :=
  ⟨.inl (by decide), .inr (.inr rfl)⟩

theorem witness_CommandBetweenReadsTearsTheResult :
    ∃ (s : State) (rest : List BusCycle),
      s.host = readCycle 0x16 :: writeCycle 0x13 0x03 :: readCycle 0x17 :: rest ∧
      s.flen = 13 ∧ s.fbuf[0] = 0xFF ∧ s.fbuf[1] = 0x87 ∧ s.fbuf[12] = wantedChecksum s 13 :=
  ⟨{ loaded combined 13 with gas := 0x1234, host := [readCycle 0x16, writeCycle 0x13 0x03, readCycle 0x17] }, [],
    by decide⟩

theorem witness_InstancesShareNothing :
    ∃ (k : Fin Config.nInstances) (t : State), step (systemReset[k]) = .next t :=
  ⟨0, step_reset⟩
where
  step_reset : ∃ t, step (systemReset[(0 : Fin Config.nInstances)]) = .next t :=
    ⟨serving State.reset [], by simp [systemReset]; rfl⟩

theorem witness_MnemonicsExpandToCommandWrites :
    (2 ≤ 2 ∧ 2 ≤ 13) ∧ (2 ≤ 13 ∧ 13 ≤ 13) ∧ 1 < 2 ∧ 13 < 14 := by decide

/-- No byte, two bytes and thirteen bytes. -/
theorem witness_FrameLoadsTheBuffer :
    assembleLine (.frame []) = .ok [writeCycle 0x10 0] ∧
    ([0x4F, 0x4B] : List Byte).length ≤ 13 ∧
    assembleLine (.frame [0x4F, 0x4B]) = .ok [writeCycle 0x00 0x4F, writeCycle 0x01 0x4B, writeCycle 0x10 0x02] ∧
    (assembleLine (.frame combined.toList)).toOption.map List.length = some 14 := by decide

end Sys2Proof.Tests
end

section
/-! PROOFS. What an operation does, said once: the checks it makes in order, the verdict of the first that fails,
and the registers it writes for that verdict. -/

namespace Sys2Proof.Machine

/-! ### The verdict of an operation -/

/-- The last byte of a frame of length `len` is its checksum (40_checksum.md R51). -/
def checksumOk (len : Nat) (s : State) : Bool := fbufAt s (len - 1) == frameCk s len

/-- The checks an operation makes, in order, each with the code it raises (60_exceptions.md R65, R67). -/
def checks (i : Instr) (s : State) : List (Bool × ErrCode) :=
  match i with
  | .ckgen => []
  | .validate elen hen =>
    [(elenLegal elen, .illegalOp), (lengthIs (expectedLen elen) s, .length),
      (!hen || headIs s.hdr0 s.hdr1 s, .header), (checksumOk (expectedLen elen) s, .checksum)]
  | .pcomb =>
    [(lengthIs combinedLen s, .length), (headIs combinedHdr0 combinedHdr1 s, .header),
      (checksumOk combinedLen s, .checksum)]
  | .pstat => [(lengthIs statusLen s, .length), (checksumOk statusLen s, .checksum)]
  | .pconf => [(lengthIs confirmLen s, .length), (headIs confirmByte0 confirmByte1 s, .unexpected)]

/-- The code of the first check that fails, none when all pass (60_exceptions.md R66, R67). -/
def firstFailure : List (Bool × ErrCode) → ErrCode
  | [] => .none
  | (ok, e) :: cs => if ok then firstFailure cs else e

/-- The code an operation ends with. -/
def verdict (i : Instr) (s : State) : ErrCode := firstFailure (checks i s)

theorem firstFailure_cases (cs : List (Bool × ErrCode)) :
    firstFailure cs = .none ∨ (false, firstFailure cs) ∈ cs := by
  induction cs with
  | nil => exact .inl rfl
  | cons c cs ih =>
    obtain ⟨ok, e⟩ := c
    cases ok with
    | false => exact .inr (.head _)
    | true => exact ih.imp_right (.tail _)

/-! ### What an operation writes -/

/-- The checksum an operation puts in CALC; PCONF computes none and leaves CALC (40_checksum.md R51, R52). -/
def calcOf (i : Instr) (s : State) : Byte :=
  match i with
  | .ckgen => ck s 1 (commandCkOffset - 1)
  | .validate elen _ => frameCk s (expectedLen elen)
  | .pcomb => frameCk s combinedLen
  | .pstat => frameCk s statusLen
  | .pconf => s.calcReg

/-- What a successful operation writes besides CALC and STATUS (40_checksum.md R52, 41_frame_parse.md R59, R60). -/
def writeResults (i : Instr) (s : State) : State :=
  match i with
  | .ckgen => setFbuf commandCkOffset s.calcReg s
  | .validate _ _ => s
  | .pcomb => decodeCombined s
  | .pstat => setLed (ledCode (fbufAt s 2)) s
  | .pconf => s

/-- What an operation that ends with `e` writes besides STATUS: everything on success, CALC alone on a wrong
checksum, nothing on any other failure (60_exceptions.md R66). -/
def writeback (i : Instr) (e : ErrCode) (s : State) : State :=
  match e with
  | .none => writeResults i (setCalc (calcOf i s) s)
  | .checksum => setCalc (calcOf i s) s
  | _ => s

/-- A check in front of the rest of an operation puts its code in front of the rest's verdict. -/
theorem require_verdict {i : Instr} {ok : Bool} {e : ErrCode} {rest : State → State} {s : State}
    {cs : List (Bool × ErrCode)} (he : writeback i e s = s)
    (hrest : rest s = setErr (firstFailure cs) (writeback i (firstFailure cs) s)) :
    require ok e rest s =
      setErr (firstFailure ((ok, e) :: cs)) (writeback i (firstFailure ((ok, e) :: cs)) s) := by
  cases ok with
  | false => exact congrArg (setErr e) he.symm
  | true => exact hrest

/-- The checksum stage is an operation's last check: CALC is written either way, the results on success. -/
theorem checksumStage_verdict {i : Instr} {len : Nat} {rest : State → State} {s : State}
    (hc : calcOf i s = frameCk s len)
    (hrest : rest (setCalc (frameCk s len) s) = done (writeResults i (setCalc (frameCk s len) s))) :
    checksumStage len rest s = setErr (firstFailure [(checksumOk len s, .checksum)])
      (writeback i (firstFailure [(checksumOk len s, .checksum)]) s) := by
  unfold checksumStage checksumOk
  cases fbufAt s (len - 1) == frameCk s len with
  | false => exact congrArg (fun c => setErr .checksum (setCalc c s)) hc.symm
  | true => exact hrest.trans (congrArg (fun c => done (writeResults i (setCalc c s))) hc.symm)

/-- Every operation writes what its verdict allows, and then the verdict to STATUS. -/
theorem exec_eq (i : Instr) (s : State) :
    exec i s = .next (setErr (verdict i s) (writeback i (verdict i s) s)) := by
  cases i with
  | ckgen => rfl
  | validate elen hen =>
    exact congrArg Host.Outcome.next
      (require_verdict rfl (require_verdict rfl (require_verdict rfl (checksumStage_verdict rfl rfl))))
  | pcomb =>
    exact congrArg Host.Outcome.next (require_verdict rfl (require_verdict rfl (checksumStage_verdict rfl rfl)))
  | pstat => exact congrArg Host.Outcome.next (require_verdict rfl (checksumStage_verdict rfl rfl))
  | pconf => exact congrArg Host.Outcome.next (require_verdict rfl (require_verdict rfl rfl))

/-- An operation's next state, by its verdict. -/
theorem eq_of_exec {i : Instr} {s t : State} (h : exec i s = .next t) :
    t = setErr (verdict i s) (writeback i (verdict i s) s) := by
  rw [exec_eq] at h
  injection h with h
  exact h.symm

/-! The byte a verdict puts in STATUS is 0 for none only, and 3 for CHECKSUM only (60_exceptions.md R65). -/

theorem errByte_eq_zero_iff (e : ErrCode) : (0#5 ++ errBits e : Byte) = 0 ↔ e = .none := by
  cases e <;> decide

theorem errByte_eq_three_iff (e : ErrCode) : (0#5 ++ errBits e : Byte) = 3 ↔ e = .checksum := by
  cases e <;> decide

/-- All the registers an operation writes: none, CALC alone, or those of a success. -/
theorem writeback_cases (i : Instr) (e : ErrCode) (s : State) :
    (e = .none ∧ writeback i e s = writeResults i (setCalc (calcOf i s) s)) ∨
    (e = .checksum ∧ writeback i e s = setCalc (calcOf i s) s) ∨
    (e ≠ .none ∧ e ≠ .checksum ∧ writeback i e s = s) := by
  cases e with
  | none => exact .inl ⟨rfl, rfl⟩
  | checksum => exact .inr (.inl ⟨rfl, rfl⟩)
  | _ => exact .inr (.inr ⟨nofun, nofun, rfl⟩)

section WritebackFields

variable (i : Instr) (e : ErrCode) (s : State)

@[simp] theorem writeback_flen : (writeback i e s).flen = s.flen := by cases e <;> cases i <;> rfl
@[simp] theorem writeback_hdr0 : (writeback i e s).hdr0 = s.hdr0 := by cases e <;> cases i <;> rfl
@[simp] theorem writeback_hdr1 : (writeback i e s).hdr1 = s.hdr1 := by cases e <;> cases i <;> rfl
@[simp] theorem writeback_cmd : (writeback i e s).cmd = s.cmd := by cases e <;> cases i <;> rfl
@[simp] theorem writeback_status : (writeback i e s).status = s.status := by cases e <;> cases i <;> rfl
@[simp] theorem writeback_host : (writeback i e s).host = s.host := by cases e <;> cases i <;> rfl
@[simp] theorem writeback_rdata : (writeback i e s).rdata = s.rdata := by cases e <;> cases i <;> rfl

@[simp] theorem writeback_fbuf : (writeback i e s).fbuf =
    if i = .ckgen ∧ e = .none then s.fbuf.setIfInBounds commandCkOffset (calcOf i s) else s.fbuf := by
  cases e <;> cases i <;> rfl
@[simp] theorem writeback_calcReg : (writeback i e s).calcReg =
    if e = .none ∨ e = .checksum then calcOf i s else s.calcReg := by
  cases e <;> cases i <;> rfl
@[simp] theorem writeback_gas : (writeback i e s).gas = if i = .pcomb ∧ e = .none then be16 s 2 else s.gas := by
  cases e <;> cases i <;> rfl
@[simp] theorem writeback_temp : (writeback i e s).temp = if i = .pcomb ∧ e = .none then be16 s 8 else s.temp := by
  cases e <;> cases i <;> rfl
@[simp] theorem writeback_hum : (writeback i e s).hum = if i = .pcomb ∧ e = .none then be16 s 10 else s.hum := by
  cases e <;> cases i <;> rfl
@[simp] theorem writeback_led : (writeback i e s).led =
    if i = .pstat ∧ e = .none then ledCode (fbufAt s 2) else s.led := by
  cases e <;> cases i <;> rfl

end WritebackFields

/-- All a CMD write can do: run the operation its byte encodes, or take the ILLEGAL_OP outcome. -/
theorem cmdWrite_cases (v : Byte) (s : State) :
    (∃ i, decode v = .ok i ∧ cmdWrite v s =
      .next (setErr (verdict i (storeCmd v s)) (writeback i (verdict i (storeCmd v s)) (storeCmd v s)))) ∨
    (∃ r, decode v = .error r ∧ cmdWrite v s = .next (setErr .illegalOp (storeCmd v s))) := by
  unfold cmdWrite
  cases hd : decode v with
  | ok i => exact .inl ⟨i, rfl, exec_eq i _⟩
  | error r => exact .inr ⟨r, rfl, rfl⟩

/-- All a step that answers a next state can do: reset, a CMD write, or a step that changes FBUF, FLEN, HDR0, HDR1
and the model's own fields at most. -/
theorem next_cases {s t : State} (h : step s = .next t) :
    ((currentCycle s).rst = true ∧ t = resetBlock (beginCycle s)) ∨
    (∃ v, currentCycle s = ⟨false, true, false, cmdAddr, v⟩ ∧ cmdWrite v (beginCycle s) = .next t) ∨
    (∃ f n h0 h1 r, t = { beginCycle s with fbuf := f, flen := n, hdr0 := h0, hdr1 := h1, rdata := r }) := by
  obtain ⟨hr, hstep⟩ | ⟨-, -, -, hstep⟩ | ⟨hr, hwr, hrd, haddr, hstep⟩ | ⟨-, -, -, -, hstep⟩ | ⟨-, -, -, hstep⟩ |
    ⟨-, -, -, hstep⟩ := step_cases s <;> rw [hstep] at h
  · cases h
    exact .inl ⟨hr, rfl⟩
  · cases h
  · have hcycle : currentCycle s = ⟨(currentCycle s).rst, (currentCycle s).wr, (currentCycle s).rd,
        (currentCycle s).addr, (currentCycle s).wdata⟩ := rfl
    rw [hr, hwr, hrd, haddr] at hcycle
    exact .inr (.inl ⟨_, hcycle, h⟩)
  · obtain ⟨f, n, h0, h1, hstore⟩ := storeReg_keeps (currentCycle s).addr (currentCycle s).wdata (beginCycle s)
    rw [hstore] at h
    cases h
    exact .inr (.inr ⟨f, n, h0, h1, none, rfl⟩)
  · cases h
    exact .inr (.inr ⟨s.fbuf, s.flen, s.hdr0, s.hdr1, _, rfl⟩)
  · cases h
    exact .inr (.inr ⟨s.fbuf, s.flen, s.hdr0, s.hdr1, none, rfl⟩)

end Sys2Proof.Machine
end

section
/-! PROOFS. The invariant of the block: STATUS a code the byte in CMD can report, LED a legal code. -/

namespace Sys2Proof.Machine

open Spec

/-- The verdict is none, or the code of a check that fails. -/
theorem verdict_cases (i : Instr) (s : State) : verdict i s = .none ∨ (false, verdict i s) ∈ checks i s :=
  firstFailure_cases (checks i s)

/-- The codes each operation can end with (60_exceptions.md R65). -/
def verdictCodes (i : Instr) : List ErrCode :=
  match i with
  | .ckgen => [.none]
  | .validate _ true => [.none, .length, .header, .checksum]
  | .validate _ false => [.none, .length, .checksum]
  | .pcomb => [.none, .length, .header, .checksum]
  | .pstat => [.none, .length, .checksum]
  | .pconf => [.none, .length, .unexpected]

/-- An operation with an encoding ends with one of its codes: HEADER needs a header check, and ILLEGAL_OP a length
that has no encoding. -/
theorem verdict_mem_verdictCodes {i : Instr} (h : i.WellFormed) (s : State) : verdict i s ∈ verdictCodes i := by
  have hv := verdict_cases i s
  generalize verdict i s = e at hv ⊢
  cases i <;> simp only [checks, List.mem_cons, Prod.mk.injEq, List.not_mem_nil, or_false] at hv
  case ckgen => simp [verdictCodes, hv]
  case validate elen hen =>
    obtain rfl | ⟨hl, rfl⟩ | ⟨-, rfl⟩ | ⟨hh, rfl⟩ | ⟨-, rfl⟩ := hv
    · cases hen <;> simp [verdictCodes]
    · exact absurd (hl.trans h) Bool.false_ne_true
    · cases hen <;> simp [verdictCodes]
    · cases hen with
      | false => cases hh
      | true => simp [verdictCodes]
    · cases hen <;> simp [verdictCodes]
  case pcomb => obtain rfl | ⟨-, rfl⟩ | ⟨-, rfl⟩ | ⟨-, rfl⟩ := hv <;> simp [verdictCodes]
  case pstat => obtain rfl | ⟨-, rfl⟩ | ⟨-, rfl⟩ := hv <;> simp [verdictCodes]
  case pconf => obtain rfl | ⟨-, rfl⟩ | ⟨-, rfl⟩ := hv <;> simp [verdictCodes]

/-- Only an instruction with an encoding is decoded. -/
theorem wellFormed_of_decode {v : Byte} {i : Instr} (h : decode v = .ok i) : i.WellFormed := by
  obtain ⟨-, rfl⟩ | ⟨elen, hen, rfl, hlegal, -⟩ | ⟨-, rfl⟩ | ⟨-, rfl⟩ | ⟨-, rfl⟩ := decode_cases h
  case inr.inl => exact hlegal
  all_goals rfl

/-- A byte that encodes an operation can report exactly that operation's codes. -/
theorem reportable_of_decode_ok {v : Byte} {i : Instr} (h : decode v = .ok i) :
    reportable v = (verdictCodes i).map (0#5 ++ errBits ·) := by
  unfold reportable
  rw [h]
  cases i with
  | validate elen hen => cases hen <;> rfl
  | _ => rfl

theorem reportable_of_decode_error {v : Byte} {e : IllegalReason} (h : decode v = .error e) :
    reportable v = [5] := by
  simp [reportable, h]

/-- The reset state is legal, whatever the host drives next. -/
theorem legalState_resetBlock (s : State) : LegalState (resetBlock s) :=
  ⟨.inr ⟨rfl, rfl, rfl, rfl, rfl, rfl, rfl⟩, .inl rfl⟩

/-- An operation keeps LED 0, 1 or 2. -/
theorem writeback_led_legal (i : Instr) (e : ErrCode) {s : State} (h : s.led = 0 ∨ s.led = 1 ∨ s.led = 2) :
    (writeback i e s).led = 0 ∨ (writeback i e s).led = 1 ∨ (writeback i e s).led = 2 := by
  rw [writeback_led]
  split
  · exact ledCode_cases _
  · exact h

/-- A CMD write reaches a legal state from any state whose LED is legal: it writes STATUS anew. -/
theorem cmdWrite_legalState {v : Byte} {s t : State} (hled : s.led = 0 ∨ s.led = 1 ∨ s.led = 2)
    (h : cmdWrite v s = .next t) : LegalState t := by
  obtain ⟨i, hd, hw⟩ | ⟨r, hd, hw⟩ := cmdWrite_cases v s <;> rw [hw] at h <;> cases h
  · refine ⟨.inl ?_, writeback_led_legal i _ hled⟩
    simp only [setErr_status, setErr_cmd, writeback_cmd, storeCmd_cmd]
    rw [reportable_of_decode_ok hd]
    exact List.mem_map_of_mem (verdict_mem_verdictCodes (wellFormed_of_decode hd) _)
  · refine ⟨.inl ?_, hled⟩
    rw [setErr_cmd, storeCmd_cmd, reportable_of_decode_error hd]
    exact List.mem_singleton.2 rfl

/-- Settles O40: a CMD write leaves a code of the byte it stored, a reset the reset state, and every other step
keeps the registers the invariant speaks of. -/
theorem stepKeepsLegalState : Obligations.StepKeepsLegalState := by
  unfold Obligations.StepKeepsLegalState
  intro s t hs h
  obtain ⟨-, rfl⟩ | ⟨v, -, hcmd⟩ | ⟨f, n, h0, h1, r, rfl⟩ := next_cases h
  · exact legalState_resetBlock _
  · exact cmdWrite_legalState (s := beginCycle s) hs.led hcmd
  · exact ⟨hs.status, hs.led⟩

/-- Every reportable code is one of 60_exceptions.md R65, 0 to 5. -/
theorem toNat_le_five_of_mem_reportable {v cmd : Byte} (h : v ∈ reportable cmd) : v.toNat ≤ 5 := by
  cases hd : decode cmd with
  | ok i =>
    rw [reportable_of_decode_ok hd, List.mem_map] at h
    obtain ⟨e, -, rfl⟩ := h
    cases e <;> decide
  | error r =>
    rw [reportable_of_decode_error hd, List.mem_singleton] at h
    subst h
    decide

theorem LegalState.status_le_five {s : State} (h : LegalState s) : s.status.toNat ≤ 5 := by
  obtain hs | ⟨-, hs, -⟩ := h.status
  · exact toNat_le_five_of_mem_reportable hs
  · rw [hs]
    decide

theorem LegalState.led_le_two {s : State} (h : LegalState s) : s.led.toNat ≤ 2 := by
  obtain hl | hl | hl := h.led <;> rw [hl] <;> decide

/-- Settles O42: a legal STATUS has no reserved bit set, a legal LED neither, so their views are the registers. -/
theorem legalStateReadsLegalCodes : Obligations.LegalStateReadsLegalCodes := by
  unfold Obligations.LegalStateReadsLegalCodes
  intro s h
  have hstatus := h.status_le_five
  have hled := h.led_le_two
  have hsv : busRead 0x14 s = s.status :=
    BitVec.eq_of_toNat_eq ((statusView_toNat s).trans (Nat.mod_eq_of_lt (by omega)))
  have hlv : busRead 0x1C s = s.led :=
    BitVec.eq_of_toNat_eq ((ledView_toNat s).trans (Nat.mod_eq_of_lt (by omega)))
  refine ⟨hsv ▸ hstatus, hsv, hlv ▸ hled, hlv, ?_⟩
  obtain hl | hl | hl := h.led <;> simp [ledState, ledField, hl]

end Sys2Proof.Machine
end

section
/-! PROOFS. What an operation leaves unchanged, and what a failing one leaves of its results. -/

namespace Sys2Proof.Machine

open Spec

/-! ### Which addresses each write of an operation can change -/

variable {s : State} {a : Byte}

theorem busRead_setErr (h : a ≠ 0x14) (e : ErrCode) : busRead a (setErr e s) = busRead a s := by
  unfold busRead
  split
  · rfl
  · split
    case h_5 ha => exact absurd (BitVec.eq_of_toNat_eq ha) h
    all_goals rfl

theorem busRead_setCalc (h : a ≠ 0x15) (c : Byte) : busRead a (setCalc c s) = busRead a s := by
  unfold busRead
  split
  · rfl
  · split
    case h_6 ha => exact absurd (BitVec.eq_of_toNat_eq ha) h
    all_goals rfl

theorem busRead_setFbuf {k : Nat} (h : a.toNat ≠ k) (v : Byte) : busRead a (setFbuf k v s) = busRead a s := by
  unfold busRead
  split
  · exact fbufAt_setFbuf_ne h.symm v
  · rfl

theorem busRead_setLed (h : a ≠ 0x1C) (v : Byte) : busRead a (setLed v s) = busRead a s := by
  unfold busRead
  split
  · rfl
  · split
    case h_13 ha => exact absurd (BitVec.eq_of_toNat_eq ha) h
    all_goals rfl

theorem busRead_setCombined (h : a ∉ [0x16#8, 0x17, 0x18, 0x19, 0x1A, 0x1B]) (g t u : Half) :
    busRead a (setCombined g t u s) = busRead a s := by
  have ne {n : Nat} (hn : BitVec.ofNat 8 n ∈ [0x16#8, 0x17, 0x18, 0x19, 0x1A, 0x1B]) (ha : a.toNat = n) : False :=
    h (by rwa [← ha, BitVec.ofNat_toNat, BitVec.setWidth_eq] at hn)
  unfold busRead
  split
  · rfl
  · split
    case h_7 ha | h_8 ha | h_9 ha | h_10 ha | h_11 ha | h_12 ha => exact (ne (by decide) ha).elim
    all_goals rfl

/-- Whatever its verdict, an operation changes no address outside those it may write. -/
theorem busRead_writeback {i : Instr} (e : ErrCode) (h : a ∉ mayChange i) :
    busRead a (setErr e (writeback i e s)) = busRead a s := by
  have hstatus : a ≠ 0x14 := by
    rintro rfl
    exact h (by cases i <;> simp [mayChange])
  have hcalc : i = .pconf ∨ a ≠ 0x15 := by
    cases i with
    | pconf => exact .inl rfl
    | _ => exact .inr (by rintro rfl; exact h (by simp [mayChange]))
  have hstage : busRead a (setCalc (calcOf i s) s) = busRead a s := by
    obtain rfl | hcalc := hcalc
    · rfl
    · exact busRead_setCalc hcalc _
  have hresults (u : State) : busRead a (writeResults i u) = busRead a u := by
    cases i with
    | ckgen => exact busRead_setFbuf (fun h8 => h (by simp [mayChange, ← BitVec.toNat_inj, h8, commandCkOffset])) _
    | pcomb => exact busRead_setCombined (fun hm => h (List.mem_cons_of_mem _ (List.mem_cons_of_mem _ hm))) _ _ _
    | pstat => exact busRead_setLed (fun hl => h (by simp [mayChange, hl])) _
    | validate => rfl
    | pconf => rfl
  rw [busRead_setErr hstatus]
  obtain ⟨-, hw⟩ | ⟨-, hw⟩ | ⟨-, -, hw⟩ := writeback_cases i e s <;> rw [hw]
  · rw [hresults, hstage]
  · exact hstage

/-- Settles O33: the bus clause address by address, the others register by register. -/
theorem operationFrame : Obligations.OperationFrame := by
  unfold Obligations.OperationFrame
  intro i s _
  refine ⟨_, exec_eq i s, fun a ha => busRead_writeback _ ha, ?_, ?_, by simp, by simp, by simp, by simp, ?_, ?_, ?_,
    by simp, by simp⟩
  · by_cases hi : i = .ckgen <;> simp [hi]
  · intro k hk h8
    simp only [setErr_fbuf, writeback_fbuf]
    split
    · exact Vector.getElem_setIfInBounds_ne hk h8.symm
    · rfl
  · by_cases hi : i = .pcomb <;> simp [hi]
  · by_cases hi : i = .pstat <;> simp [hi]
  · rintro rfl
    simp [calcOf]

/-- Settles O34: past its verdict a failing operation has written nothing, or CALC when the verdict is CHECKSUM. -/
theorem failingOperationWritesNoResult : Obligations.FailingOperationWritesNoResult := by
  unfold Obligations.FailingOperationWritesNoResult
  intro i s t h hfail
  obtain rfl := eq_of_exec h
  obtain ⟨he, -⟩ | ⟨he, hw⟩ | ⟨-, -, hw⟩ := writeback_cases i (verdict i s) s
  · exact absurd ((errByte_eq_zero_iff _).2 he) hfail
  · rw [hw]
    exact ⟨rfl, absurd ((errByte_eq_three_iff _).2 he)⟩
  · rw [hw]
    exact ⟨rfl, fun _ => rfl⟩

end Sys2Proof.Machine
end

section
/-! PROOFS. An operation reads its inputs only: two states that agree on them get the same verdict and the same
written values. -/

namespace Sys2Proof.Machine

open Spec

/-- Two states that agree on what the operation reads (10_state.md R12 to R14). -/
structure AgreeOnInputs (i : Instr) (s s' : State) : Prop where
  flen : readsFlen i → s.flen = s'.flen
  header : readsHeader i → s.hdr0 = s'.hdr0 ∧ s.hdr1 = s'.hdr1
  cell : ∀ (k : Nat) (h : k < 13), readsCell i k → s.fbuf[k] = s'.fbuf[k]

section Congruence

variable {i : Instr} {s s' : State}

theorem AgreeOnInputs.fbufAt_eq (h : AgreeOnInputs i s s') {k : Nat} (hk : readsCell i k) :
    fbufAt s k = fbufAt s' k := by
  by_cases h13 : k < 13
  · rw [fbufAt_of_lt h13, fbufAt_of_lt h13, h.cell k h13 hk]
  · simp [fbufAt, h13]

theorem AgreeOnInputs.lengthIs_eq (h : AgreeOnInputs i s s') (hi : readsFlen i) (len : Nat) :
    lengthIs len s = lengthIs len s' := by
  simp only [lengthIs, h.flen hi]

theorem AgreeOnInputs.headIs_eq (h : AgreeOnInputs i s s') (h0 : readsCell i 0) (h1 : readsCell i 1) (b0 b1 : Byte) :
    headIs b0 b1 s = headIs b0 b1 s' := by
  simp only [headIs, h.fbufAt_eq h0, h.fbufAt_eq h1]

theorem AgreeOnInputs.frameCk_eq (h : AgreeOnInputs i s s') {len : Nat}
    (hr : ∀ k, 1 ≤ k → k < len - 1 → readsCell i k) : frameCk s len = frameCk s' len :=
  frameCk_congr fun k h1 h2 => h.fbufAt_eq (hr k h1 h2)

theorem AgreeOnInputs.checksumOk_eq (h : AgreeOnInputs i s s') {len : Nat} (hlen : 2 ≤ len)
    (hr : ∀ k, 1 ≤ k → k ≤ len - 1 → readsCell i k) : checksumOk len s = checksumOk len s' := by
  simp only [checksumOk, h.fbufAt_eq (hr (len - 1) (by omega) le_rfl), h.frameCk_eq fun k h1 h2 => hr k h1 h2.le]

theorem AgreeOnInputs.verdict_eq (h : AgreeOnInputs i s s') (hi : i.WellFormed) : verdict i s = verdict i s' := by
  have hchecks : checks i s = checks i s' := by
    cases i with
    | ckgen => rfl
    | validate elen hen =>
      have hlen : 2 ≤ elen.toNat := by
        have : legalLength elen = true := hi
        simp only [legalLength, Bool.and_eq_true, decide_eq_true_eq] at this
        exact this.1
      have hhead : (!hen || headIs s.hdr0 s.hdr1 s) = (!hen || headIs s'.hdr0 s'.hdr1 s') := by
        cases hen with
        | false => rfl
        | true =>
          obtain ⟨e0, e1⟩ := h.header ⟨elen, rfl⟩
          rw [e0, e1, h.headIs_eq (.inr ⟨rfl, rfl⟩) (.inl ⟨le_rfl, by omega⟩)]
      simp only [checks]
      rw [h.lengthIs_eq nofun, hhead, h.checksumOk_eq (len := expectedLen elen) hlen fun k h1 h2 => .inl ⟨h1, h2⟩]
    | pcomb =>
      simp only [checks]
      rw [h.lengthIs_eq nofun, h.headIs_eq (Nat.zero_le _) (Nat.le_add_left 1 11),
        h.checksumOk_eq (by decide) fun k _ h2 => h2]
    | pstat =>
      simp only [checks]
      rw [h.lengthIs_eq nofun, h.checksumOk_eq (by decide) fun k h1 h2 => ⟨h1, h2⟩]
    | pconf =>
      simp only [checks]
      rw [h.lengthIs_eq nofun, h.headIs_eq (Nat.zero_le _) le_rfl]
  exact congrArg firstFailure hchecks

/-- PCONF computes no checksum: its CALC is the one before. -/
theorem AgreeOnInputs.calcOf_eq (h : AgreeOnInputs i s s') (hc : i = .pconf → s.calcReg = s'.calcReg) :
    calcOf i s = calcOf i s' := by
  cases i with
  | ckgen => exact h.frameCk_eq (len := 9) fun k h1 h2 => ⟨h1, Nat.le_of_lt_succ h2⟩
  | validate elen hen => exact h.frameCk_eq fun k h1 h2 => .inl ⟨h1, h2.le⟩
  | pcomb => exact h.frameCk_eq fun k _ h2 => h2.le
  | pstat => exact h.frameCk_eq fun k h1 h2 => ⟨h1, h2.le⟩
  | pconf => exact hc rfl

theorem AgreeOnInputs.be16_eq (h : AgreeOnInputs i s s') (hi : i = .pcomb) {k : Nat} (hk : k < 12) :
    be16 s k = be16 s' k := by
  subst hi
  rw [be16, be16, h.fbufAt_eq (Nat.le_of_lt hk), h.fbufAt_eq (k := k + 1) hk]

theorem AgreeOnInputs.ledCode_eq (h : AgreeOnInputs i s s') (hi : i = .pstat) :
    ledCode (fbufAt s 2) = ledCode (fbufAt s' 2) := by
  subst hi
  rw [h.fbufAt_eq ⟨by decide, by decide⟩]

end Congruence

/-- Settles O35: the verdict, the checksum, the fields and the LED code are each computed from the inputs alone. -/
theorem operationReadsOnlyItsInputs : Obligations.OperationReadsOnlyItsInputs := by
  unfold Obligations.OperationReadsOnlyItsInputs
  intro i s s' hi hflen hheader hcell
  have h : AgreeOnInputs i s s' := ⟨hflen, hheader, hcell⟩
  refine ⟨_, _, exec_eq i s, exec_eq i s', ?_⟩
  rw [h.verdict_eq hi]
  simp only [setErr_status, setErr_calcReg, setErr_gas, setErr_temp, setErr_hum, setErr_led, setErr_fbuf,
    writeback_calcReg, writeback_gas, writeback_temp, writeback_hum, writeback_led, writeback_fbuf, true_and]
  refine ⟨fun hc => ?_, fun hg => ?_, fun ht => ?_, fun hh => ?_, fun hl => ?_, ?_⟩
  · exact ite_congr rfl (fun _ => h.calcOf_eq fun _ => hc) (fun _ => hc)
  · exact ite_congr rfl (fun hp => h.be16_eq hp.1 (by decide)) (fun _ => hg)
  · exact ite_congr rfl (fun hp => h.be16_eq hp.1 (by decide)) (fun _ => ht)
  · exact ite_congr rfl (fun hp => h.be16_eq hp.1 (by decide)) (fun _ => hh)
  · exact ite_congr rfl (fun hp => h.ledCode_eq hp.1) (fun _ => hl)
  · rintro rfl
    simp [verdict, checks, firstFailure, commandCkOffset, h.calcOf_eq nofun]

end Sys2Proof.Machine
end

section
/-! PROOFS. Steps: the cycle without a strobe, and the two operations that change a result. -/

namespace Sys2Proof.Machine

open Spec

/-- Settles O8: with no strobe the cycle is taken from the list and nothing else happens. -/
theorem idleCycleChangesNoRegister : Obligations.IdleCycleChangesNoRegister := by
  unfold Obligations.IdleCycleChangesNoRegister
  refine ⟨fun s h => ?_, fun s a v rest h => ?_⟩
  · have hcycle : currentCycle s = idleCycle := by simp [currentCycle, h]
    have hbegin : beginCycle s = serving s [] := by simp [beginCycle, serving, h]
    rw [step, hcycle, hbegin]
    rfl
  · rw [step, currentCycle_cons h, beginCycle_cons h]
    rfl

/-- The parser's big-endian field is the spec's (41_frame_parse.md R56). -/
theorem be16_eq_bigEndian (s : State) {i : Nat} (h : i + 1 < 13) :
    be16 s i = bigEndian s.fbuf[i] s.fbuf[i + 1] := by
  have hlt := (be16 s i).isLt
  apply BitVec.eq_of_toNat_eq
  rw [be16_toNat, fbufAt_of_lt (by omega), fbufAt_of_lt h] at hlt ⊢
  rw [bigEndian, BitVec.toNat_ofNat, Nat.mod_eq_of_lt hlt]

/-- A CMD write that changes GAS, TEMP or HUM wrote PCOMB, and it succeeded. -/
theorem cmdWrite_changes_combined {v : Byte} {s t : State} (h : cmdWrite v s = .next t)
    (hne : t.gas ≠ s.gas ∨ t.temp ≠ s.temp ∨ t.hum ≠ s.hum) :
    v = 0x03 ∧ t.status = 0 ∧ t.gas = be16 s 2 ∧ t.temp = be16 s 8 ∧ t.hum = be16 s 10 := by
  obtain ⟨i, hd, hw⟩ | ⟨r, hd, hw⟩ := cmdWrite_cases v s <;> rw [hw] at h <;> cases h
  · have hp : i = .pcomb ∧ verdict i (storeCmd v s) = .none := by
      by_contra hp
      simp [hp] at hne
    obtain ⟨rfl, hv⟩ := hp
    have hbyte : v = 0x03 := by simpa using decode_cases hd
    rw [hv]
    exact ⟨hbyte, rfl, rfl, rfl, rfl⟩
  · simp at hne

/-- A CMD write that changes LED wrote PSTAT, and it succeeded. -/
theorem cmdWrite_changes_led {v : Byte} {s t : State} (h : cmdWrite v s = .next t) (hne : t.led ≠ s.led) :
    v = 0x04 ∧ t.status = 0 ∧ t.led = ledCode (fbufAt s 2) := by
  obtain ⟨i, hd, hw⟩ | ⟨r, hd, hw⟩ := cmdWrite_cases v s <;> rw [hw] at h <;> cases h
  · have hp : i = .pstat ∧ verdict i (storeCmd v s) = .none := by
      by_contra hp
      simp [hp] at hne
    obtain ⟨rfl, hv⟩ := hp
    have hbyte : v = 0x04 := by simpa using decode_cases hd
    rw [hv]
    exact ⟨hbyte, rfl, rfl⟩
  · simp at hne

/-- Settles O39: only a CMD write changes a result, and of those only the one parse that writes it. -/
theorem resultsChangeOnlyByASuccessfulParse : Obligations.ResultsChangeOnlyByASuccessfulParse := by
  unfold Obligations.ResultsChangeOnlyByASuccessfulParse
  intro s t c rest hhost hrst h
  have hcycle : currentCycle s = c := currentCycle_cons hhost
  rw [← hcycle] at hrst ⊢
  obtain ⟨hr, -⟩ | ⟨v, hwrite, hcmd⟩ | ⟨f, n, h0, h1, r, rfl⟩ := next_cases h
  · exact absurd (hr.symm.trans hrst) nofun
  · rw [hwrite]
    refine ⟨fun hne => ?_, fun hne => ?_⟩
    · obtain ⟨rfl, hstatus, hgas, htemp, hhum⟩ := cmdWrite_changes_combined hcmd hne
      exact ⟨rfl, hstatus, hgas.trans (be16_eq_bigEndian s (by decide)),
        htemp.trans (be16_eq_bigEndian s (by decide)), hhum.trans (be16_eq_bigEndian s (by decide))⟩
    · obtain ⟨rfl, hstatus, hled⟩ := cmdWrite_changes_led hcmd hne
      rw [fbufAt_beginCycle, fbufAt_of_lt (by decide)] at hled
      exact ⟨rfl, hstatus, hled⟩
  · exact ⟨fun hne => by simp at hne, fun hne => absurd rfl hne⟩

end Sys2Proof.Machine
end

section
/-! PROOFS. The register bus: what a read and a write of each address do, and the runs of two cycles
(20_memory.md R25 to R35). -/

namespace Sys2Proof.Machine

open Spec

/-! ### Reads -/

section Reads

variable {s : State} {a : Byte}

/-- The addresses 20_memory.md R27 reserves read as 0. -/
theorem busRead_reserved (h : 13 ≤ a.toNat ∧ a.toNat ≤ 15 ∨ 0x1D ≤ a.toNat) : busRead a s = 0 := by
  unfold busRead
  split
  · omega
  · split
    case h_14 => rfl
    all_goals omega

/-- An address reads alike in two states that differ in FLEN, HDR0 and HDR1 only, unless it is one of these. -/
theorem busRead_inputs {n h0 h1 : Byte} (hn : a = 0x10 → n = s.flen) (hh0 : a = 0x11 → h0 = s.hdr0)
    (hh1 : a = 0x12 → h1 = s.hdr1) : busRead a { s with flen := n, hdr0 := h0, hdr1 := h1 } = busRead a s := by
  unfold busRead
  split
  · rfl
  · split
    case h_1 ha => exact hn (BitVec.eq_of_toNat_eq ha)
    case h_2 ha => exact hh0 (BitVec.eq_of_toNat_eq ha)
    case h_3 ha => exact hh1 (BitVec.eq_of_toNat_eq ha)
    all_goals rfl

end Reads

/-! ### Writes to any address but CMD -/

section Writes

variable {s : State} {a b v : Byte}

/-- All a write to an address other than CMD can do: store a frame byte, FLEN or a header byte, or nothing. -/
theorem storeReg_cases (a v : Byte) (s : State) :
    (a.toNat < 13 ∧ storeReg a v s = setFbuf a.toNat v s) ∨
    (a = 0x10 ∧ storeReg a v s = { s with flen := v }) ∨
    (a = 0x11 ∧ storeReg a v s = { s with hdr0 := v }) ∨
    (a = 0x12 ∧ storeReg a v s = { s with hdr1 := v }) ∨
    ((13 ≤ a.toNat ∧ a.toNat ≤ 15 ∨ 0x13 ≤ a.toNat) ∧ storeReg a v s = s) := by
  unfold storeReg
  split
  case isTrue h => exact .inl ⟨h, rfl⟩
  case isFalse h =>
    split
    case h_1 ha => exact .inr (.inl ⟨BitVec.eq_of_toNat_eq ha, rfl⟩)
    case h_2 ha => exact .inr (.inr (.inl ⟨BitVec.eq_of_toNat_eq ha, rfl⟩))
    case h_3 ha => exact .inr (.inr (.inr (.inl ⟨BitVec.eq_of_toNat_eq ha, rfl⟩)))
    case h_4 => exact .inr (.inr (.inr (.inr ⟨by grind, rfl⟩)))

theorem storeReg_fbuf (h : a.toNat < 13) : storeReg a v s = { s with fbuf := s.fbuf.set a.toNat v } := by
  have hset : s.fbuf.setIfInBounds a.toNat v = s.fbuf.set a.toNat v := by
    ext k hk
    rw [Vector.getElem_setIfInBounds hk, Vector.getElem_set]
  rw [storeReg, if_pos h, setFbuf, hset]

/-- A write to a read-only register or a reserved address is ignored (20_memory.md R31). -/
theorem storeReg_ignored (h : 13 ≤ a.toNat ∧ a.toNat ≤ 15 ∨ 0x14 ≤ a.toNat) : storeReg a v s = s := by
  obtain ⟨ha, -⟩ | ⟨rfl, -⟩ | ⟨rfl, -⟩ | ⟨rfl, -⟩ | ⟨-, hw⟩ := storeReg_cases a v s
  case inr.inr.inr.inr => exact hw
  case inl => omega
  all_goals exact absurd h (by decide)

@[simp] theorem storeReg_host (a v : Byte) (s : State) : (storeReg a v s).host = s.host := by
  obtain ⟨f, n, h0, h1, hstore⟩ := storeReg_keeps a v s
  rw [hstore]

/-- A read/write register reads as the byte stored there. -/
theorem busRead_storeReg_self (h : a.toNat < 13 ∨ 0x10 ≤ a.toNat ∧ a.toNat ≤ 0x12) :
    busRead a (storeReg a v s) = v := by
  obtain ⟨ha, hw⟩ | ⟨rfl, hw⟩ | ⟨rfl, hw⟩ | ⟨rfl, hw⟩ | ⟨ha, -⟩ := storeReg_cases a v s
  case inl => rw [hw, busRead, if_pos ha, fbufAt_setFbuf_self ha]
  case inr.inr.inr.inr => omega
  all_goals rw [hw]; rfl

/-- A store changes what no other address reads as. -/
theorem busRead_storeReg_ne (h : a ≠ b) : busRead b (storeReg a v s) = busRead b s := by
  obtain ⟨-, hw⟩ | ⟨rfl, hw⟩ | ⟨rfl, hw⟩ | ⟨rfl, hw⟩ | ⟨-, hw⟩ := storeReg_cases a v s <;> rw [hw]
  · exact busRead_setFbuf (fun hba => h (BitVec.eq_of_toNat_eq hba.symm)) v
  · exact busRead_inputs (fun hb => absurd hb.symm h) (fun _ => rfl) (fun _ => rfl)
  · exact busRead_inputs (fun _ => rfl) (fun hb => absurd hb.symm h) (fun _ => rfl)
  · exact busRead_inputs (fun _ => rfl) (fun _ => rfl) (fun hb => absurd hb.symm h)

end Writes

/-! ### Steps and runs -/

section Steps

variable {s u : State} {c : BusCycle} {b v : Byte} {i : Instr} {rest : List BusCycle}

/-- A step serves the first cycle the host drives. -/
theorem step_eq_busCycle (h : s.host = c :: rest) : step s = busCycle c (serving s rest) := by
  rw [step, currentCycle_cons h, beginCycle_cons h, serving]

/-- A CMD write runs the operation its byte encodes (20_memory.md R32). -/
theorem step_command (h : s.host = writeCycle 0x13 v :: rest) (hd : decode v = .ok i) :
    step s = exec i { serving s rest with cmd := v } := by
  have hstep : step s = cmdWrite v (serving s rest) := step_eq_busCycle h
  rw [hstep, cmdWrite, hd]
  rfl

/-- A CMD write of a byte that encodes no operation reports ILLEGAL_OP (30_encoding.md R44). -/
theorem step_illegal {e : IllegalReason} (h : s.host = writeCycle 0x13 v :: rest) (hd : decode v = .error e) :
    step s = .next { serving s rest with cmd := v, status := 5 } := by
  have hstep : step s = cmdWrite v (serving s rest) := step_eq_busCycle h
  rw [hstep, cmdWrite, hd]
  rfl

/-- Two steps whose second is a read: the byte comes from the state the first step leaves (20_memory.md R35). -/
theorem run_two_of_read (hstep : step s = .next u) (hu : u.host = readCycle b :: rest) :
    Host.Core.run core 2 s = .next { u with host := rest, rdata := some (busRead b u) } := by
  have hread : step u = .next (driveRdata b (serving u rest)) := step_eq_busCycle hu
  rw [run_succ_of_next hstep, run_succ_of_next hread]
  rfl

theorem exec_host {t : State} (h : exec i s = .next t) : t.host = s.host := by
  rw [eq_of_exec h]
  simp

/-- The encoding of a well-formed instruction decodes to it. -/
theorem decode_encode_of_wellFormed (h : i.WellFormed) : decode (encode i) = .ok i := by
  cases i with
  | validate elen hen =>
    exact (by decide : ∀ elen hen, legalLength elen = true →
      decode (encode (.validate elen hen)) = .ok (.validate elen hen)) elen hen h
  | _ => decide

/-- A command and the read after it, run in two steps. -/
theorem run_command_then_read (hi : i.WellFormed)
    (h : s.host = writeCycle 0x13 (encode i) :: readCycle b :: rest)
    (hu : exec i { serving s (readCycle b :: rest) with cmd := encode i } = .next u) :
    Host.Core.run core 2 s = .next { u with host := rest, rdata := some (busRead b u) } :=
  run_two_of_read ((step_command h (decode_encode_of_wellFormed hi)).trans hu) (exec_host hu)

end Steps

/-! ### The statements about transactions -/

/-- Settles O3: the step is a read of the address, and each clause is a line of the address map. -/
theorem readReturnsTheAddressedByte : Obligations.ReadReturnsTheAddressedByte := by
  unfold Obligations.ReadReturnsTheAddressedByte
  intro s a w rest h
  refine ⟨busRead a s, step_eq_busCycle h, fun ha => busRead_fbuf ha, fun ha => busRead_reserved (.inl ha),
    ?_, ?_, ?_, ?_, ?_, ?_, ?_, ?_, ?_, ?_, ?_, ?_, ?_, fun ha => busRead_reserved (.inr ha)⟩ <;> rintro rfl
  · rfl
  · rfl
  · rfl
  · rfl
  · exact statusView_toNat s
  · rfl
  · exact hiByte_toNat s.gas
  · exact loByte_toNat s.gas
  · exact hiByte_toNat s.temp
  · exact loByte_toNat s.temp
  · exact hiByte_toNat s.hum
  · exact loByte_toNat s.hum
  · exact ledView_toNat s

/-- Settles O4: a store for the addresses other than CMD, the decoder's two answers for CMD. -/
theorem writeFollowsTheAddressMap : Obligations.WriteFollowsTheAddressMap := by
  unfold Obligations.WriteFollowsTheAddressMap
  intro s a v rest h
  have hstore (ha : a ≠ cmdAddr) : step s = .next (storeReg a v (serving s rest)) :=
    (step_eq_busCycle h).trans (if_neg ha)
  refine ⟨fun ha => ?_, ?_, ?_, ?_, ?_, ?_, fun ha => ?_⟩
  · rw [hstore (by rintro rfl; exact absurd ha (by decide)), storeReg_fbuf ha]
    rfl
  · rintro rfl
    exact hstore (by decide)
  · rintro rfl
    exact hstore (by decide)
  · rintro rfl
    exact hstore (by decide)
  · rintro rfl i hd
    exact step_command h hd
  · rintro rfl e hd
    exact step_illegal h hd
  · rw [hstore (by rintro rfl; exact absurd ha (by decide)), storeReg_ignored ha]

/-- Settles O11: the read is of the state the store leaves. -/
theorem readAfterWriteReturnsTheLatestByte : Obligations.ReadAfterWriteReturnsTheLatestByte := by
  unfold Obligations.ReadAfterWriteReturnsTheLatestByte
  intro s a v b rest ha h
  have hhost := (storeReg_host a v (beginCycle s)).trans (congrArg List.tail h)
  refine ⟨_, run_two_of_read (step_write h ha) hhost, ?_, fun hab => congrArg some ?_⟩
  · rintro rfl hrw
    exact congrArg some (busRead_storeReg_self hrw)
  · obtain hne | hignored := hab
    · exact busRead_storeReg_ne hne
    · rw [storeReg_ignored hignored, busRead_beginCycle]

/-- Settles O12: the read is of the state the operation leaves. -/
theorem readAfterCommandSeesItsResults : Obligations.ReadAfterCommandSeesItsResults := by
  unfold Obligations.ReadAfterCommandSeesItsResults
  intro s i b rest hi h
  obtain ⟨u, hu⟩ := exec_next i { serving s (readCycle b :: rest) with cmd := encode i }
  exact ⟨u, _, hu, run_command_then_read hi h hu, rfl⟩

/-- Settles O5: the byte written is the one decoded. -/
theorem stepRunsTheDecodedOperation : Obligations.StepRunsTheDecodedOperation := by
  unfold Obligations.StepRunsTheDecodedOperation
  intro s v i rest h hd _
  exact step_command h hd

/-- A table word stands for an operation when its byte decodes to it. -/
theorem decode_of_decodeTableWord {nbits w : Nat} {i : Instr} (h : decodeTableWord nbits w = some i) :
    decode (tableByte nbits w) = .ok i := by
  unfold decodeTableWord at h
  cases hd : decode (tableByte nbits w) with
  | ok j =>
    rw [hd] at h
    cases h
    rfl
  | error e =>
    rw [hd] at h
    cases h

/-- Settles O6: the word's byte is the one decoded. -/
theorem fetchWordRunsTheTableOperation : Obligations.FetchWordRunsTheTableOperation := by
  unfold Obligations.FetchWordRunsTheTableOperation
  intro s w i _ h
  have hbyte : tableByte 8 w = BitVec.ofNat 8 w := BitVec.eq_of_toNat_eq (by simp [tableByte])
  rw [← hbyte]
  exact step_command (s := s.withFetchWord 8 w) rfl (decode_of_decodeTableWord h)

/-! ### Several instances -/

/-- Settles O44: the system's step writes block `k` only. -/
theorem instancesShareNothing : Obligations.InstancesShareNothing := by
  unfold Obligations.InstancesShareNothing
  intro k j S t h
  refine ⟨S.set k t, by simp only [systemStep, h], Vector.getElem_set_self _, fun hne => ?_⟩
  exact Vector.getElem_set_ne _ _ (fun hkj => hne (Fin.ext hkj.symm))

end Sys2Proof.Machine
end

section
/-! PROOFS. The parsed results on the bus, high byte at the lower address, and the torn read. -/

namespace Sys2Proof.Machine

open Spec

/-- A 16-bit result is its high byte followed by its low byte (20_memory.md R29). -/
theorem hiByte_append_loByte (h : Half) : hiByte h ++ loByte h = h := by
  apply BitVec.eq_of_toNat_eq
  rw [BitVec.toNat_append, Nat.shiftLeft_eq, Nat.mul_comm, ← Nat.two_pow_add_eq_or_of_lt (loByte h).isLt,
    hiByte_toNat, loByte_toNat]
  exact Nat.div_add_mod _ _

theorem hiByte_eq_ofNat (h : Half) : hiByte h = BitVec.ofNat 8 (h.toNat / 256) := by
  rw [← hiByte_toNat, BitVec.ofNat_toNat, BitVec.setWidth_eq]

/-- The high byte of a big-endian field is the frame byte at the lower offset. -/
theorem hiByte_of_be16 {s : State} {g : Half} {i : Nat} (hg : g = be16 s i) (hi : i < 13) :
    hiByte g = s.fbuf[i] := by
  apply BitVec.eq_of_toNat_eq
  rw [hg, hiByte_toNat, be16_toNat, ← fbufAt_of_lt hi]
  omega

theorem loByte_of_be16 {s : State} {g : Half} {i : Nat} (hg : g = be16 s i) (hi : i + 1 < 13) :
    loByte g = s.fbuf[i + 1] := by
  apply BitVec.eq_of_toNat_eq
  rw [hg, loByte_toNat, be16_toNat, ← fbufAt_of_lt hi]
  omega

/-- A PCOMB that succeeds puts the frame's three fields in the result registers (41_frame_parse.md R58). -/
theorem results_of_pcomb {s t : State} (h : exec .pcomb s = .next t) (ht : t.status = 0) :
    t.gas = be16 s 2 ∧ t.temp = be16 s 8 ∧ t.hum = be16 s 10 := by
  have hverdict := eq_of_exec h
  subst hverdict
  rw [(errByte_eq_zero_iff _).1 ht]
  exact ⟨rfl, rfl, rfl⟩

/-- Settles O30: the two halves make up the register, and a parsed register holds two frame bytes. -/
theorem resultAddressesReadAsTheFrameBytes : Obligations.ResultAddressesReadAsTheFrameBytes := by
  unfold Obligations.ResultAddressesReadAsTheFrameBytes
  refine ⟨fun s => ⟨hiByte_append_loByte s.gas, hiByte_append_loByte s.temp, hiByte_append_loByte s.hum⟩,
    fun s t h ht => ?_⟩
  obtain ⟨hgas, htemp, hhum⟩ := results_of_pcomb h ht
  exact ⟨hiByte_of_be16 hgas (by decide), loByte_of_be16 hgas (by decide), hiByte_of_be16 htemp (by decide),
    loByte_of_be16 htemp (by decide), hiByte_of_be16 hhum (by decide), loByte_of_be16 hhum (by decide)⟩

/-- The checksum of a frame is the one the spec's sum asks for (40_checksum.md R50, R55). -/
theorem frameCk_eq_wantedChecksum (s : State) {len : Nat} (h : len ≤ 13) : frameCk s len = wantedChecksum s len := by
  have hlen : len - 2 + 1 - 1 = len - 2 := by omega
  rw [frameCk, ck_eq_neg_slice (by omega), hlen]
  rfl

/-- PCOMB succeeds on a valid combined-data frame (41_frame_parse.md R59). -/
theorem pcomb_status_of_valid {s t : State} (h : exec .pcomb s = .next t) (hlen : s.flen = 13)
    (h0 : s.fbuf[0] = 0xFF) (h1 : s.fbuf[1] = 0x87) (hck : s.fbuf[12] = wantedChecksum s 13) : t.status = 0 := by
  have hl : lengthIs combinedLen s = true := lengthIs_iff.2 (by rw [hlen]; rfl)
  have hh : headIs combinedHdr0 combinedHdr1 s = true :=
    headIs_iff.2 ⟨(fbufAt_of_lt (by decide)).trans h0, (fbufAt_of_lt (by decide)).trans h1⟩
  have hc : checksumOk combinedLen s = true :=
    beq_iff_eq.2 ((fbufAt_of_lt (by decide)).trans (hck.trans (frameCk_eq_wantedChecksum s le_rfl).symm))
  rw [eq_of_exec h]
  simp [verdict, checks, firstFailure, hl, hh, hc, errBits]

/-- Settles O43: the first read is of the old GAS, the command and the second read are one run of two. -/
theorem commandBetweenReadsTearsTheResult : Obligations.CommandBetweenReadsTearsTheResult := by
  unfold Obligations.CommandBetweenReadsTearsTheResult
  intro s rest h hlen h0 h1 hck
  have hread : step s = .next _ := step_read h
  obtain ⟨u, hu⟩ := exec_next .pcomb { serving s (readCycle 0x17 :: rest) with cmd := 0x03 }
  have hstatus : u.status = 0 := pcomb_status_of_valid hu hlen h0 h1 hck
  obtain ⟨hgas, -, -⟩ := results_of_pcomb hu hstatus
  have hlow : busRead 0x17 u = s.fbuf[3] := loByte_of_be16 hgas (by decide)
  have hrun := run_command_then_read (i := .pcomb) (s := driveRdata 0x16 (beginCycle s)) rfl (congrArg List.tail h) hu
  exact ⟨_, _, hread, congrArg some (hiByte_eq_ofNat s.gas), (run_succ_of_next hread).trans hrun,
    congrArg some hlow, hstatus⟩

end Sys2Proof.Machine
end

section
/-! PROOFS. Repeating an operation: it keeps its inputs, so it writes the same values again. -/

namespace Sys2Proof.Machine

open Spec

/-- An operation keeps its own inputs: the one cell CKGEN writes is not one it reads. -/
theorem agreeOnInputs_writeback (i : Instr) (e : ErrCode) (s : State) :
    AgreeOnInputs i s (setErr e (writeback i e s)) where
  flen _ := by simp
  header _ := by simp
  cell k hk hread := by
    rw [setErr_fbuf]
    by_cases hc : i = .ckgen ∧ e = .none
    · obtain ⟨rfl, rfl⟩ := hc
      have h7 : 1 ≤ k ∧ k ≤ 7 := hread
      simp only [writeback_fbuf, and_self, if_true]
      exact (Vector.getElem_setIfInBounds_ne hk (by unfold commandCkOffset; omega)).symm
    · simp only [writeback_fbuf, if_neg hc]

/-- An instruction without an encoding is a VALIDATE of an illegal length: it reports ILLEGAL_OP. -/
theorem verdict_of_not_wellFormed {i : Instr} (h : ¬ i.WellFormed) (s : State) : verdict i s = .illegalOp := by
  cases i with
  | validate elen hen =>
    have hl : elenLegal elen = false := Bool.eq_false_of_not_eq_true h
    simp [verdict, checks, firstFailure, hl]
  | _ => exact absurd rfl h

/-- Two states that agree on an operation's inputs get the same verdict, with an encoding or without. -/
theorem AgreeOnInputs.verdict_eq_of_any {i : Instr} {s s' : State} (h : AgreeOnInputs i s s') :
    verdict i s = verdict i s' := by
  by_cases hi : i.WellFormed
  · exact h.verdict_eq hi
  · rw [verdict_of_not_wellFormed hi, verdict_of_not_wellFormed hi]

/-- A success repeated with the same checksum writes the same values over themselves. -/
theorem writeResults_again (i : Instr) (c : Byte) (s : State) :
    setErr .none (writeResults i (setCalc c (setErr .none (writeResults i (setCalc c s))))) =
      setErr .none (writeResults i (setCalc c s)) := by
  cases i with
  | ckgen => simp [writeResults, setFbuf, setCalc, setErr]
  | pcomb => simp [writeResults, decodeCombined, be16, fbufAt, setCombined, setCalc, setErr]
  | pstat => simp [writeResults, fbufAt, setLed, setCalc, setErr]
  | validate => rfl
  | pconf => rfl

/-- An outcome repeated changes nothing when its checksum is the same. -/
theorem setErr_writeback_again {i : Instr} {e : ErrCode} {s : State}
    (hc : calcOf i s = calcOf i (setErr e (writeback i e s))) :
    setErr e (writeback i e (setErr e (writeback i e s))) = setErr e (writeback i e s) := by
  cases e with
  | none =>
    exact (congrArg (fun c => setErr .none (writeResults i (setCalc c _))) hc.symm).trans (writeResults_again i _ s)
  | checksum => exact congrArg (fun c => setErr .checksum (setCalc c s)) hc.symm
  | _ => rfl

/-- Settles O38: an operation keeps its inputs, so the second run has the first one's verdict and writes. -/
theorem repeatingAnOperationChangesNothing : Obligations.RepeatingAnOperationChangesNothing := by
  unfold Obligations.RepeatingAnOperationChangesNothing
  intro i s
  have hagree := agreeOnInputs_writeback i (verdict i s) s
  refine ⟨_, exec_eq i s, ?_⟩
  rw [exec_eq, ← hagree.verdict_eq_of_any, setErr_writeback_again]
  exact hagree.calcOf_eq (by rintro rfl; simp [calcOf])

end Sys2Proof.Machine
end

section
/-! PROOFS. The command byte: the instructions that have an encoding, the bytes they encode to, and the bytes that
encode none (30_encoding.md R41 to R47); the FRAME pseudo-instruction. -/

namespace Sys2Proof.Machine

open Spec

/-! ### The command byte as a number -/

/-- The fields at their places: ELEN from bit 4, HEN at bit 3, OP below (30_encoding.md R41). -/
theorem packCommand_toNat (op : BitVec 3) (hen : Bool) (elen : BitVec 4) :
    (packCommand op hen elen).toNat = 16 * elen.toNat + (if hen then 8 else 0) + op.toNat := by
  have hhi : (elen ++ BitVec.ofBool hen).toNat = 2 * elen.toNat + (if hen then 1 else 0) := by
    rw [BitVec.toNat_append, Nat.shiftLeft_eq, Nat.mul_comm, ← Nat.two_pow_add_eq_or_of_lt (by omega)]
    cases hen <;> rfl
  rw [packCommand, BitVec.toNat_append, hhi, Nat.shiftLeft_eq, Nat.mul_comm,
    ← Nat.two_pow_add_eq_or_of_lt (by omega)]
  cases hen <;> simp only [if_true, Bool.false_eq_true, if_false] <;> omega

/-- A byte is its three fields packed (30_encoding.md R41). -/
theorem packCommand_fields (v : Byte) : packCommand (opField v) (henField v) (elenField v) = v := by
  revert v; decide

/-! ### The instructions with an encoding -/

section Encoding

variable {v : Byte} {i : Instr} {elen : BitVec 4} {hen : Bool}

theorem wellFormed_validate_iff : (Instr.validate elen hen).WellFormed ↔ 2 ≤ elen.toNat ∧ elen.toNat ≤ 13 := by
  simp [Instr.WellFormed, Instr.wf, legalLength]

theorem encode_validate_toNat (elen : BitVec 4) (hen : Bool) :
    (encode (.validate elen hen)).toNat = 16 * elen.toNat + (if hen then 8 else 0) + 2 :=
  packCommand_toNat 2 hen elen

/-- The byte decoded is the encoding of what it decodes to. -/
theorem encode_of_decode (h : decode v = .ok i) : encode i = v := by
  obtain ⟨rfl, rfl⟩ | ⟨_, _, rfl, -, rfl, rfl, hop⟩ | ⟨rfl, rfl⟩ | ⟨rfl, rfl⟩ | ⟨rfl, rfl⟩ := decode_cases h
  case inr.inl =>
    rw [encode, ← hop]
    exact packCommand_fields v
  all_goals rfl

/-- Decoding is the inverse of encoding the instructions that have an encoding. -/
theorem decode_eq_ok_iff : decode v = .ok i ↔ i.WellFormed ∧ encode i = v := by
  constructor
  · exact fun h => ⟨wellFormed_of_decode h, encode_of_decode h⟩
  · rintro ⟨hi, rfl⟩
    exact decode_encode_of_wellFormed hi

/-- The instructions with an encoding: the four without operands, and VALIDATE of each length from 2 to 13. -/
def encodable : List Instr :=
  [.ckgen, .pcomb, .pstat, .pconf] ++
    (List.range' 2 12).flatMap fun n => [.validate (BitVec.ofNat 4 n) false, .validate (BitVec.ofNat 4 n) true]

theorem mem_encodable_iff : i ∈ encodable ↔ i.WellFormed := by
  cases i with
  | validate elen hen => revert elen hen; decide
  | _ => decide

/-- The bytes that decode are the encodings of the instructions that have one. -/
theorem decodes_iff_mem : (∃ i, decode v = .ok i) ↔ v ∈ encodable.map encode := by
  simp only [decode_eq_ok_iff, List.mem_map, mem_encodable_iff]

end Encoding

/-! ### The statements about the encoding -/

/-- Settles O15: the encoding's fields select the operation and its operands. -/
theorem decodeInvertsEncode : Obligations.DecodeInvertsEncode := by
  unfold Obligations.DecodeInvertsEncode
  exact fun _ => decode_encode_of_wellFormed

/-- Settles O16: a decoded byte is its own fields packed again. -/
theorem encodeInvertsDecode : Obligations.EncodeInvertsDecode := by
  unfold Obligations.EncodeInvertsDecode
  exact fun _ _ => decode_eq_ok_iff.mp

/-- Settles O13: each line says that the byte is the encoding of a well-formed instruction. -/
theorem operationMapIsExact : Obligations.OperationMapIsExact := by
  unfold Obligations.OperationMapIsExact
  intro v
  have plain {i : Instr} (hi : i.WellFormed) : decode v = .ok i ↔ v = encode i := by
    rw [decode_eq_ok_iff, eq_comm]
    exact and_iff_right hi
  refine ⟨plain rfl, fun elen hen => ?_, plain rfl, plain rfl, plain rfl, decodes_iff_mem⟩
  rw [decode_eq_ok_iff, wellFormed_validate_iff, and_assoc, eq_comm, ← BitVec.toNat_inj, encode_validate_toNat]

/-- Settles O14: the byte of no well-formed instruction has one of these forms, so the byte is rejected. -/
theorem illegalCommandSetsErrFiveOnly : Obligations.IllegalCommandSetsErrFiveOnly := by
  unfold Obligations.IllegalCommandSetsErrFiveOnly
  intro s v rest h hv
  cases hd : decode v with
  | error e => exact step_illegal h hd
  | ok i =>
    obtain ⟨hi, rfl⟩ := decode_eq_ok_iff.mp hd
    cases i with
    | validate elen hen =>
      rw [wellFormed_validate_iff] at hi
      rw [encode_validate_toNat] at hv
      split at hv <;> omega
    | _ => exact absurd hv (by decide)

/-- Settles O17: nine bytes evaluated by the decoder. -/
theorem sampleCommandBytesDecode : Obligations.SampleCommandBytesDecode := by
  unfold Obligations.SampleCommandBytesDecode
  decide

/-- Settles O21: the length fails VALIDATE's first check. -/
theorem validateWithoutEncodingIsIllegal : Obligations.ValidateWithoutEncodingIsIllegal := by
  unfold Obligations.ValidateWithoutEncodingIsIllegal
  intro s elen hen h
  have hi : ¬ (Instr.validate elen hen).WellFormed := by
    rw [wellFormed_validate_iff]
    omega
  rw [exec_eq, verdict_of_not_wellFormed hi]
  rfl

/-- Settles O45: VALIDATE's byte is computed from its fields, the other lines are their definitions. -/
theorem mnemonicsExpandToCommandWrites : Obligations.MnemonicsExpandToCommandWrites := by
  unfold Obligations.MnemonicsExpandToCommandWrites
  refine ⟨rfl, rfl, rfl, rfl, fun _ => rfl, fun len hen => ⟨fun h => ?_, fun h => if_neg (by omega)⟩⟩
  have hbyte : encode (.validate (BitVec.ofNat 4 len) hen) =
      BitVec.ofNat 8 (len * 16 + (if hen then 0x0A else 0x02)) := by
    apply BitVec.eq_of_toNat_eq
    rw [encode_validate_toNat, BitVec.toNat_ofNat, BitVec.toNat_ofNat]
    split <;> omega
  rw [assembleLine, if_pos h, commandCycles, hbyte]
  rfl

/-! ### FRAME -/

/-- A write to the address of a frame cell stores the byte there (20_memory.md R31). -/
theorem step_write_cell {s : State} {a : Nat} {b : Byte} {rest : List BusCycle}
    (h : s.host = writeCycle (BitVec.ofNat 8 a) b :: rest) (ha : a < 13) :
    step s = .next { serving s rest with fbuf := s.fbuf.set a b } := by
  have haddr : (BitVec.ofNat 8 a).toNat = a := Nat.mod_eq_of_lt (by omega)
  have hne : BitVec.ofNat 8 a ≠ cmdAddr := fun hcmd => by
    have hcmd : a = 19 := haddr.symm.trans (congrArg BitVec.toNat hcmd)
    omega
  rw [step_write h hne, storeReg_fbuf (by omega), beginCycle_cons h]
  simp only [haddr, serving]

/-- The writes of consecutive frame bytes and then FLEN: one step a write, the bytes from cell `a` on. -/
theorem run_writesFrom {n : Byte} {rest : List BusCycle} (bytes : List Byte) (a : Nat) (s : State)
    (hlen : a + bytes.length ≤ 13) (h : s.host = writesFrom a bytes ++ writeCycle 0x10 n :: rest) :
    ∃ f : Vector Byte 13,
      Host.Core.run core (bytes.length + 1) s = .next { serving s rest with fbuf := f, flen := n } ∧
      ∀ (k : Nat) (hk : k < 13), f[k] = if k < a then s.fbuf[k] else (bytes[k - a]?).getD s.fbuf[k] := by
  induction bytes generalizing a s with
  | nil =>
    have hstep : step s = .next { serving s rest with flen := n } := step_eq_busCycle h
    exact ⟨s.fbuf, run_succ_of_next hstep, fun k hk => by simp⟩
  | cons b bytes ih =>
    rw [List.length_cons] at hlen
    have hstep := step_write_cell h (by omega)
    obtain ⟨f, hrun, hcells⟩ := ih (a + 1)
      { serving s (writesFrom (a + 1) bytes ++ writeCycle 0x10 n :: rest) with fbuf := s.fbuf.set a b } (by omega) rfl
    refine ⟨f, (run_succ_of_next hstep).trans hrun, fun k hk => ?_⟩
    rw [hcells k hk]
    simp only [Vector.getElem_set]
    obtain hlt | rfl | hgt := Nat.lt_trichotomy k a
    · simp [hlt, hlt.ne', Nat.lt_succ_of_lt hlt]
    · simp
    · have hidx : k - a = k - (a + 1) + 1 := by omega
      rw [if_neg (by omega), if_neg (by omega), if_neg (by omega), hidx, List.getElem?_cons_succ]

/-- Settles O46: the writes of the bytes start at cell 0. -/
theorem frameLoadsTheBuffer : Obligations.FrameLoadsTheBuffer := by
  unfold Obligations.FrameLoadsTheBuffer
  intro s bytes rest cs hlen hasm h
  rw [assembleLine, if_pos hlen] at hasm
  injection hasm with hasm
  rw [← hasm, frameCycles, List.append_assoc] at h
  obtain ⟨f, hrun, hcells⟩ := run_writesFrom bytes 0 s (by omega) h
  exact ⟨f, hrun, fun k hk => (hcells k hk).trans (if_neg (Nat.not_lt_zero k))⟩

end Sys2Proof.Machine
end

section
/-! PROOFS. The checksum unit: the sum of frame bytes and its two's-complement negative, the verdict of VALIDATE in
terms of the covered sum, and what that sum does not see (40_checksum.md R49 to R54). -/

namespace Sys2Proof.Machine

open Spec

/-! ### Sums of frame bytes -/

section Sums

variable {s : State}

/-- An exact sum is over the spec's slice of the frame; an empty range may start anywhere. -/
theorem sumFrom_eq_bytesFrom {a n : Nat} (h : n = 0 ∨ a + n ≤ 13) :
    sumFrom s a n = ((bytesFrom s a n).map BitVec.toNat).sum := by
  obtain rfl | h := h
  · rfl
  · exact sumFrom_eq_slice h

/-- The byte after a slice is the last of the slice one longer. -/
theorem bytesFrom_succ {a n : Nat} (h : a + n < 13) : bytesFrom s a (n + 1) = bytesFrom s a n ++ [s.fbuf[a + n]] := by
  have hlt : n < (s.fbuf.toList.drop a).length := by simp; omega
  rw [bytesFrom, List.take_add_one, List.getElem?_eq_getElem hlt]
  simp [bytesFrom]

/-- Replacing a byte of a slice adds the difference to its sum. -/
theorem bytesFrom_withByte_sum {a n : Nat} {i : Fin 13} (b : Byte) (h1 : a ≤ i.val) (h2 : i.val < a + n) :
    (bytesFrom (withByte s i b) a n).sum = (bytesFrom s a n).sum + (b - s.fbuf[i]) := by
  have hset : bytesFrom (withByte s i b) a n = (bytesFrom s a n).set (i - a) b := by
    simp only [bytesFrom, withByte, Vector.toList_set, List.drop_set, List.take_set, if_neg (Nat.not_lt.mpr h1)]
  have hlt : i.val - a < (bytesFrom s a n).length := by simp [bytesFrom]; omega
  have hget : (bytesFrom s a n)[i.val - a] = s.fbuf[i] := by simp [bytesFrom, Nat.add_sub_cancel' h1]
  rw [hset, List.sum_set', dif_pos hlt, hget, neg_add_eq_sub]

/-- Adding to one byte of a slice what is subtracted from another keeps its sum. -/
theorem bytesFrom_cancelling_sum {a n : Nat} {i j : Fin 13} (hji : j ≠ i) (d : Byte) (hj1 : a ≤ j.val)
    (hj2 : j.val < a + n) (hi1 : a ≤ i.val) (hi2 : i.val < a + n) :
    (bytesFrom (withByte (withByte s i (s.fbuf[i] + d)) j (s.fbuf[j] - d)) a n).sum = (bytesFrom s a n).sum := by
  have hkept : (withByte s i (s.fbuf[i] + d)).fbuf[j] = s.fbuf[j] :=
    Vector.getElem_set_ne i.isLt j.isLt fun hij => hji (Fin.ext hij.symm)
  rw [bytesFrom_withByte_sum _ hj1 hj2, bytesFrom_withByte_sum _ hi1 hi2, hkept]
  abel

/-- The last byte of a frame is its checksum exactly when the covered bytes and it sum to 0 (40_checksum.md R54). -/
theorem wantedChecksum_iff_sum_eq_zero {len : Nat} (h2 : 2 ≤ len) (h : len - 1 < 13) :
    s.fbuf[len - 1] = wantedChecksum s len ↔ (bytesFrom s 1 (len - 1)).sum = 0 := by
  obtain ⟨n, rfl⟩ := Nat.exists_eq_add_of_le' h2
  have hsucc : bytesFrom s 1 (n + 1) = bytesFrom s 1 n ++ [s.fbuf[1 + n]] := bytesFrom_succ (by omega)
  simp only [wantedChecksum, Nat.add_sub_cancel, Nat.add_succ_sub_one, hsucc, List.sum_append, List.sum_singleton,
    eq_neg_iff_add_eq_zero, add_comm]

/-- The two's-complement negative is the one's complement plus 1 (40_checksum.md R49). -/
theorem toNat_neg_eq_xor_add_one (v : Byte) : (-v).toNat = ((v.toNat ^^^ 0xFF) + 1) % 256 := by
  rw [BitVec.neg_eq_not_add, ← BitVec.xor_allOnes, BitVec.toNat_add, BitVec.toNat_xor]
  rfl

end Sums

/-- Settles O18: `ck` is defined from `sum8`, and `sum8` narrows the exact sum of the slice. -/
theorem checksumIsTwosComplementOfByteSum : Obligations.ChecksumIsTwosComplementOfByteSum := by
  unfold Obligations.ChecksumIsTwosComplementOfByteSum
  intro s a b hb
  have hsum : sumFrom s a (b + 1 - a) = ((bytesFrom s a (b + 1 - a)).map BitVec.toNat).sum :=
    sumFrom_eq_bytesFrom (by omega)
  have hck : (ck s a b).toNat = (0x100 - sum8 s a b) % 0x100 := by simp [ck]
  have hlt : sum8 s a b < 256 := sum8_lt a b
  refine ⟨congrArg (· % 256) hsum, fun hba => ?_, hck, by omega, ?_, fun hz => ?_, ?_⟩
  · rw [sum8, Nat.sub_eq_zero_of_le hba]
    rfl
  · rw [ck_eq_neg]
    exact toNat_neg_eq_xor_add_one _
  · rw [ck, hz]
    rfl
  · rw [ck_eq_neg, hsum, ofNat_sum_toNat]

/-! ### What CKGEN and VALIDATE answer -/

section Outcomes

variable {s t : State} {elen : BitVec 4} {hen : Bool}

/-- A frame cell that exists is stored to. -/
theorem setFbuf_eq_set {k : Nat} (h : k < 13) (v : Byte) : setFbuf k v s = { s with fbuf := s.fbuf.set k v } := by
  have hset : s.fbuf.setIfInBounds k v = s.fbuf.set k v := by
    ext j hj
    rw [Vector.getElem_setIfInBounds hj, Vector.getElem_set]
  rw [setFbuf, hset]

/-- CKGEN writes the checksum a command frame must carry, to FBUF[8] and CALC. -/
theorem exec_ckgen (s : State) :
    exec .ckgen s = .next (setErr .none (setFbuf 8 (frameCk s 9) (setCalc (frameCk s 9) s))) := rfl

/-- The checks of VALIDATE in their order, in the spec's terms (40_checksum.md R53). -/
theorem verdict_validate (h2 : 2 ≤ elen.toNat) (h : elen.toNat - 1 < 13) :
    verdict (.validate elen hen) s =
      if s.flen.toNat ≠ elen.toNat then .length
      else if hen = true ∧ (s.fbuf[0] ≠ s.hdr0 ∨ s.fbuf[1] ≠ s.hdr1) then .header
      else if s.fbuf[elen.toNat - 1] ≠ wantedChecksum s elen.toNat then .checksum
      else .none := by
  have hlegal : elenLegal elen = true := wellFormed_validate_iff (hen := hen).2 ⟨h2, by omega⟩
  have hlen : lengthIs (expectedLen elen) s = true ↔ s.flen.toNat = elen.toNat := lengthIs_iff
  have hhead : (!hen || headIs s.hdr0 s.hdr1 s) = true ↔
      ¬ (hen = true ∧ (s.fbuf[0] ≠ s.hdr0 ∨ s.fbuf[1] ≠ s.hdr1)) := by
    cases hen <;> simp [headIs_iff, fbufAt_of_lt]
  have hck : checksumOk (expectedLen elen) s = true ↔ s.fbuf[elen.toNat - 1] = wantedChecksum s elen.toNat := by
    rw [checksumOk, beq_iff_eq, expectedLen, fbufAt_of_lt h, frameCk_eq_wantedChecksum s (by omega)]
  simp only [verdict, checks, firstFailure, hlegal, hlen, hhead, hck, if_true, ite_not]

/-- VALIDATE without a header check ends, for a frame of the expected length, with STATUS 0 when its bytes from 1 on
sum to 0, and with CHECKSUM when they do not. -/
theorem validate_status (hexec : exec (.validate elen false) s = .next t) (h2 : 2 ≤ elen.toNat)
    (h13 : elen.toNat ≤ 13) (hlen : s.flen.toNat = elen.toNat) :
    t.status = if (bytesFrom s 1 (elen.toNat - 1)).sum = 0 then 0 else 3 := by
  rw [eq_of_exec hexec, setErr_status, verdict_validate h2 (by omega), if_neg (not_not.mpr hlen), if_neg (by simp),
    ite_not]
  simp only [wantedChecksum_iff_sum_eq_zero h2]
  split <;> rfl

/-- VALIDATE passes frames of the expected length only. -/
theorem flen_of_validate_passes (hexec : exec (.validate elen hen) s = .next t) (h2 : 2 ≤ elen.toNat)
    (h13 : elen.toNat ≤ 13) (hstatus : t.status = 0) : s.flen.toNat = elen.toNat := by
  by_contra hlen
  rw [eq_of_exec hexec, setErr_status, verdict_validate h2 (by omega), if_pos hlen] at hstatus
  exact absurd hstatus (by decide)

end Outcomes

/-- Settles O19: CKGEN makes no check, and the sum it narrows is that of seven cells. -/
theorem ckgenWritesTheChecksum : Obligations.CkgenWritesTheChecksum := by
  unfold Obligations.CkgenWritesTheChecksum
  intro s c
  have hc : frameCk s 9 = c := by
    rw [frameCk, ck_eq_neg]
    simp [sumFrom, fbufAt_of_lt, BitVec.ofNat_add, c]
  rw [exec_ckgen, hc, setFbuf_eq_set (by decide)]
  rfl

/-- Settles O20: the outcome follows from the verdict of the three checks. -/
theorem validateOutcome : Obligations.ValidateOutcome := by
  unfold Obligations.ValidateOutcome
  intro s elen hen h h2 c
  have hcalc : calcOf (.validate elen hen) s = c := frameCk_eq_wantedChecksum s (len := elen.toNat) (by omega)
  rw [exec_eq, verdict_validate h2 h]
  congr 1
  split_ifs
  · rfl
  · rfl
  · simp only [writeback, hcalc]
    rfl
  · simp only [writeback, hcalc]
    rfl

/-- Settles O31: the checksum of an empty range is 0, which is not the frame's last byte; PCONF makes no sum. -/
theorem okReplyNeedsPconf : Obligations.OkReplyNeedsPconf := by
  unfold Obligations.OkReplyNeedsPconf
  intro s hlen h0 h1
  have hwanted : wantedChecksum s 2 = 0 := by simp [wantedChecksum, bytesFrom]
  refine ⟨?_, ?_⟩
  · rw [validateOutcome s 2 false (by decide) (by decide)]
    simp [hlen, h1, hwanted]
  · have hverdict : verdict .pconf s = .none := by
      simp [verdict, checks, firstFailure, lengthIs, headIs, fbufAt_of_lt, hlen, h0, h1, confirmLen, confirmByte0,
        confirmByte1]
    rw [exec_eq, hverdict]
    rfl

/-! ### What the checksum sees of a frame -/

/-- Settles O22: STATUS is 0 or 3 by the covered sum. -/
theorem validatePassesIffCoveredSumIsZero : Obligations.ValidatePassesIffCoveredSumIsZero := by
  unfold Obligations.ValidatePassesIffCoveredSumIsZero
  intro s elen h2 h13 hlen
  obtain ⟨t, ht⟩ := exec_next (.validate elen false) s
  refine ⟨t, ht, ?_⟩
  rw [validate_status ht h2 h13 hlen]
  split
  case isTrue h => exact iff_of_true rfl h
  case isFalse h => exact iff_of_false (by decide) h

/-- Settles O24: one replaced byte moves the covered sum away from 0, and two cancelling ones leave it there. -/
theorem singleByteChangeIsDetected : Obligations.SingleByteChangeIsDetected := by
  unfold Obligations.SingleByteChangeIsDetected
  intro s t elen i h2 h13 hi1 hi2 hexec hstatus
  have hlen := flen_of_validate_passes hexec h2 h13 hstatus
  have hsum : (bytesFrom s 1 (elen.toNat - 1)).sum = 0 := by
    by_contra hne
    rw [validate_status hexec h2 h13 hlen, if_neg hne] at hstatus
    exact absurd hstatus (by decide)
  refine ⟨fun b hb => ?_, fun j d hj1 hj2 hji => ?_⟩
  · have hchanged : (bytesFrom (withByte s i b) 1 (elen.toNat - 1)).sum ≠ 0 := by
      rw [bytesFrom_withByte_sum b hi1 (by omega), hsum, zero_add]
      exact sub_ne_zero.mpr hb
    obtain ⟨u, hu⟩ := exec_next (.validate elen false) (withByte s i b)
    exact ⟨u, hu, (validate_status hu h2 h13 hlen).trans (if_neg hchanged)⟩
  · have hcancel := (bytesFrom_cancelling_sum hji d hj1 (by omega) hi1 (by omega)).trans hsum
    obtain ⟨u, hu⟩ := exec_next (.validate elen false) (withByte (withByte s i (s.fbuf[i] + d)) j (s.fbuf[j] - d))
    exact ⟨u, hu, (validate_status hu h2 h13 hlen).trans (if_pos hcancel)⟩

/-- Settles O23: the sum of a permutation is the same, and the bytes from L-1 on are the ones compared. -/
theorem reorderedBytesAreNotDetected : Obligations.ReorderedBytesAreNotDetected := by
  unfold Obligations.ReorderedBytesAreNotDetected
  intro s f elen h2 h13 hperm hdrop
  have hwanted : wantedChecksum { s with fbuf := f } elen.toNat = wantedChecksum s elen.toNat :=
    congrArg Neg.neg hperm.sum_eq
  have hlast : f[elen.toNat - 1] = s.fbuf[elen.toNat - 1] := by
    have hhead := congrArg List.head? hdrop
    rwa [List.head?_drop, List.head?_drop, Vector.getElem?_toList, Vector.getElem?_toList,
      Vector.getElem?_eq_getElem (by omega), Vector.getElem?_eq_getElem (by omega), Option.some_inj] at hhead
  refine ⟨_, validateOutcome s elen false (by omega) h2, ?_⟩
  rw [validateOutcome _ elen false (by omega) h2]
  simp only [hwanted, hlast, Bool.false_eq_true, false_and, if_false]
  congr 1
  split_ifs <;> rfl

/-! ### A cell that an operation neither reads nor writes -/

section UnreadCell

variable {i : Instr} {k : Fin 13} {b : Byte} {s t : State}

theorem agreeOnInputs_withByte (h : ¬ readsCell i k) (b : Byte) : AgreeOnInputs i s (withByte s k b) where
  flen _ := rfl
  header _ := ⟨rfl, rfl⟩
  cell j hj hread := by
    have hne : k.val ≠ j := by
      rintro rfl
      exact h hread
    exact (Vector.getElem_set_ne k.isLt hj hne).symm

theorem writeResults_withByte (h : ¬ readsCell i k) (hk : k.val ≠ 8) :
    writeResults i (withByte s k b) = withByte (writeResults i s) k b := by
  cases i with
  | ckgen =>
    have hset (u : State) : writeResults .ckgen u = { u with fbuf := u.fbuf.set 8 u.calcReg } :=
      setFbuf_eq_set (by decide) _
    rw [hset, hset, withByte, withByte, Vector.set_comm _ _ hk]
  | pcomb => exact absurd (Nat.le_of_lt_succ k.isLt) h
  | pstat =>
    rw [writeResults, ← (agreeOnInputs_withByte (s := s) h b).ledCode_eq rfl]
    rfl
  | validate => rfl
  | pconf => rfl

theorem writeback_withByte (h : ¬ readsCell i k) (hk : k.val ≠ 8) (e : ErrCode) :
    writeback i e (withByte s k b) = withByte (writeback i e s) k b := by
  have hcalc : calcOf i (withByte s k b) = calcOf i s := ((agreeOnInputs_withByte h b).calcOf_eq fun _ => rfl).symm
  cases e with
  | none =>
    rw [writeback, hcalc]
    exact writeResults_withByte (s := setCalc (calcOf i s) s) h hk
  | checksum =>
    rw [writeback, hcalc]
    rfl
  | _ => rfl

/-- An operation answers the same state with such a cell replaced before it or after it. -/
theorem exec_withByte (h : ¬ readsCell i k) (hk : k.val ≠ 8) (hexec : exec i s = .next t) :
    exec i (withByte s k b) = .next (withByte t k b) := by
  rw [eq_of_exec hexec, exec_eq, ← (agreeOnInputs_withByte h b).verdict_eq_of_any, writeback_withByte h hk]
  rfl

end UnreadCell

/-- Settles O25: byte 0 is no input of these operations, and none writes it. -/
theorem startByteNeverAffectsTheChecksum : Obligations.StartByteNeverAffectsTheChecksum := by
  unfold Obligations.StartByteNeverAffectsTheChecksum
  intro s b i hi
  have hread : ¬ readsCell i (0 : Fin 13) := by
    obtain rfl | rfl | ⟨elen, rfl⟩ := hi <;> simp [readsCell]
  obtain ⟨t, ht⟩ := exec_next i s
  exact ⟨t, ht, exec_withByte hread (by decide) ht⟩

/-! ### A generated frame validates -/

/-- CKGEN leaves in byte 8 the checksum of a frame of length 9. -/
theorem ckgen_generates {s t : State} (h : exec .ckgen s = .next t) : t.fbuf[8] = wantedChecksum t 9 := by
  have hexec := exec_ckgen s
  rw [h] at hexec
  injection hexec with hexec
  have hlast : fbufAt t 8 = frameCk s 9 := by
    rw [hexec, fbufAt_setErr, fbufAt_setFbuf_self (by decide)]
  have hsum : frameCk t 9 = frameCk s 9 := frameCk_congr fun k _ hk => by
    rw [hexec, fbufAt_setErr, fbufAt_setFbuf_ne (by omega), fbufAt_setCalc]
  rw [← fbufAt_of_lt, hlast, ← hsum, frameCk_eq_wantedChecksum t (by decide)]

/-- A frame of the expected length with its checksum in the last byte passes VALIDATE without a header check. -/
theorem validate_passes {s : State} {elen : BitVec 4} (h2 : 2 ≤ elen.toNat) (h : elen.toNat - 1 < 13)
    (hlen : s.flen.toNat = elen.toNat) (hck : s.fbuf[elen.toNat - 1] = wantedChecksum s elen.toNat) :
    exec (.validate elen false) s = .next { s with calcReg := wantedChecksum s elen.toNat, status := 0 } := by
  rw [validateOutcome s elen false h h2, if_neg (not_not.mpr hlen), if_neg (by simp), if_neg (not_not.mpr hck)]

/-- The step that runs VALIDATE 9 on a frame of length 9 with its checksum in byte 8. -/
theorem step_validate_nine {s : State} {rest : List BusCycle} (h : s.host = writeCycle 0x13 0x92 :: rest)
    (hlen : s.flen.toNat = 9) (hck : s.fbuf[8] = wantedChecksum s 9) :
    step s = .next { serving s rest with cmd := 0x92, calcReg := wantedChecksum s 9, status := 0 } :=
  (step_command h (by decide)).trans (validate_passes (elen := 9) (by decide) (by decide) hlen hck)

/-- Settles O26: CKGEN writes to byte 8 the checksum that VALIDATE 9 compares it with. -/
theorem generatedFrameAlwaysValidates : Obligations.GeneratedFrameAlwaysValidates := by
  unfold Obligations.GeneratedFrameAlwaysValidates
  intro s rest h
  obtain ⟨u, hu⟩ := exec_next .ckgen
    { serving s (writeCycle 0x10 0x09 :: writeCycle 0x13 0x92 :: rest) with cmd := 0x01 }
  have hck : u.fbuf[8] = wantedChecksum u 9 := ckgen_generates hu
  have hckgen : step s = .next u := (step_command h (by decide)).trans hu
  have hflen : step u = .next { serving u (writeCycle 0x13 0x92 :: rest) with flen := 0x09 } :=
    step_eq_busCycle (exec_host hu)
  have hvalidate : step { serving u (writeCycle 0x13 0x92 :: rest) with flen := 0x09 } = .next _ :=
    step_validate_nine rfl rfl hck
  have hrun : Host.Core.run core 3 s = .next _ :=
    (run_succ_of_next hckgen).trans ((run_succ_of_next hflen).trans (run_succ_of_next hvalidate))
  exact ⟨_, hrun, rfl, hck, (wantedChecksum_iff_sum_eq_zero (len := 9) (by decide) (by decide)).1 hck, rfl⟩

end Sys2Proof.Machine
end

section
/-! PROOFS. The frame parser: the verdicts of PCOMB, PSTAT and PCONF in the spec's terms, their outcomes, what success
says about the frame, and the host's reading of the results (41_frame_parse.md R56 to R64). -/

namespace Sys2Proof.Machine

open Spec

/-! ### The checks in the spec's terms -/

section Checks

variable {s : State}

theorem lengthIs_iff_flen_eq {len : Nat} (h : len < 256) : lengthIs len s = true ↔ s.flen = BitVec.ofNat 8 len := by
  rw [lengthIs_iff, ← BitVec.toNat_inj, BitVec.toNat_ofNat, Nat.mod_eq_of_lt h]

theorem headIs_iff_not_wrong {h0 h1 : Byte} : headIs h0 h1 s = true ↔ ¬ (s.fbuf[0] ≠ h0 ∨ s.fbuf[1] ≠ h1) := by
  rw [headIs_iff, fbufAt_of_lt (by decide), fbufAt_of_lt (by decide), not_or, not_not, not_not]

theorem checksumOk_iff {len : Nat} (h : len - 1 < 13) :
    checksumOk len s = true ↔ s.fbuf[len - 1] = wantedChecksum s len := by
  rw [checksumOk, beq_iff_eq, fbufAt_of_lt h, frameCk_eq_wantedChecksum s (by omega)]

end Checks

/-! ### The verdict of each parse operation -/

/-- The checks of PCOMB in their order (41_frame_parse.md R59). -/
theorem verdict_pcomb (s : State) : verdict .pcomb s =
    if s.flen ≠ 13 then .length
    else if s.fbuf[0] ≠ 0xFF ∨ s.fbuf[1] ≠ 0x87 then .header
    else if s.fbuf[12] ≠ wantedChecksum s 13 then .checksum
    else .none := by
  have hlen : lengthIs combinedLen s = true ↔ s.flen = 13 := lengthIs_iff_flen_eq (by decide)
  have hhead : headIs combinedHdr0 combinedHdr1 s = true ↔ ¬ (s.fbuf[0] ≠ 0xFF ∨ s.fbuf[1] ≠ 0x87) :=
    headIs_iff_not_wrong
  have hck : checksumOk combinedLen s = true ↔ s.fbuf[12] = wantedChecksum s 13 := checksumOk_iff (by decide)
  simp only [verdict, checks, firstFailure, hlen, hhead, hck, ite_not]

/-- The checks of PSTAT in their order; it has no header check (41_frame_parse.md R60). -/
theorem verdict_pstat (s : State) : verdict .pstat s =
    if s.flen ≠ 9 then .length
    else if s.fbuf[8] ≠ wantedChecksum s 9 then .checksum
    else .none := by
  have hlen : lengthIs statusLen s = true ↔ s.flen = 9 := lengthIs_iff_flen_eq (by decide)
  have hck : checksumOk statusLen s = true ↔ s.fbuf[8] = wantedChecksum s 9 := checksumOk_iff (by decide)
  simp only [verdict, checks, firstFailure, hlen, hck, ite_not]

/-- The checks of PCONF in their order; it has no checksum stage (41_frame_parse.md R62). -/
theorem verdict_pconf (s : State) : verdict .pconf s =
    if s.flen ≠ 2 then .length
    else if s.fbuf[0] ≠ 0x4F ∨ s.fbuf[1] ≠ 0x4B then .unexpected
    else .none := by
  have hlen : lengthIs confirmLen s = true ↔ s.flen = 2 := lengthIs_iff_flen_eq (by decide)
  have hhead : headIs confirmByte0 confirmByte1 s = true ↔ ¬ (s.fbuf[0] ≠ 0x4F ∨ s.fbuf[1] ≠ 0x4B) :=
    headIs_iff_not_wrong
  simp only [verdict, checks, firstFailure, hlen, hhead, ite_not]

/-! ### The outcome of each parse operation -/

/-- Settles O27: the outcome follows from the verdict, and each parsed field is the spec's big-endian value. -/
theorem pcombOutcome : Obligations.PcombOutcome := by
  unfold Obligations.PcombOutcome
  intro s c
  have hcalc : calcOf .pcomb s = c := frameCk_eq_wantedChecksum s le_rfl
  have hgas : be16 s 2 = bigEndian s.fbuf[2] s.fbuf[3] := be16_eq_bigEndian s (by decide)
  have htemp : be16 s 8 = bigEndian s.fbuf[8] s.fbuf[9] := be16_eq_bigEndian s (by decide)
  have hhum : be16 s 10 = bigEndian s.fbuf[10] s.fbuf[11] := be16_eq_bigEndian s (by decide)
  rw [exec_eq, verdict_pcomb, ← hgas, ← htemp, ← hhum]
  congr 1
  split_ifs
  · rfl
  · rfl
  · rw [writeback, hcalc]
    rfl
  · rw [writeback, hcalc]
    rfl

/-- Settles O28: the outcome follows from the verdict, and the LED code is read from an existing cell. -/
theorem pstatOutcome : Obligations.PstatOutcome := by
  unfold Obligations.PstatOutcome
  intro s c
  have hcalc : calcOf .pstat s = c := frameCk_eq_wantedChecksum s (by decide)
  have hled : ledCode (fbufAt s 2) = if s.fbuf[2] = 0x01 then 1 else if s.fbuf[2] = 0x00 then 0 else 2 := by
    rw [fbufAt_of_lt (by decide)]
    rfl
  rw [exec_eq, verdict_pstat, ← hled]
  congr 1
  split_ifs
  · rfl
  · rw [writeback, hcalc]
    rfl
  · rw [writeback, hcalc]
    rfl

/-- Settles O29: no verdict of PCONF lets it write anything but STATUS. -/
theorem pconfOutcome : Obligations.PconfOutcome := by
  unfold Obligations.PconfOutcome
  intro s
  rw [exec_eq, verdict_pconf]
  congr 1
  split_ifs <;> rfl

/-! ### What success says about the frame -/

/-- The verdict of every operation with an expected length, in the spec's order of checks (60_exceptions.md R67). -/
theorem verdict_of_expectedFlen {i : Instr} {s : State} {len : Nat} [Decidable (headWrong i s)]
    [Decidable (checksumWrong i s len)] (hi : i.WellFormed) (hlen : expectedFlen i = some len) : verdict i s =
      if s.flen.toNat ≠ len then .length
      else if headWrong i s then (if i = .pconf then .unexpected else .header)
      else if checksumWrong i s len then .checksum
      else .none := by
  cases i with
  | ckgen => cases hlen
  | validate elen hen =>
    cases hlen
    obtain ⟨h2, h13⟩ := wellFormed_validate_iff.1 hi
    have h : elen.toNat - 1 < 13 := by omega
    simp [verdict_validate h2 h, headWrong, checksumWrong, h]
  | pcomb =>
    cases hlen
    simp [verdict_pcomb, headWrong, checksumWrong, ← BitVec.toNat_inj]
  | pstat =>
    cases hlen
    simp [verdict_pstat, headWrong, checksumWrong, ← BitVec.toNat_inj]
  | pconf =>
    cases hlen
    simp [verdict_pconf, headWrong, checksumWrong, ← BitVec.toNat_inj]

/-- Settles O37: STATUS is 0 for the verdict none only, which is the one with no check failing. -/
theorem successMeansTheFrameIsValid : Obligations.SuccessMeansTheFrameIsValid := by
  classical
  unfold Obligations.SuccessMeansTheFrameIsValid
  intro i s t len hi hlen hexec
  rw [eq_of_exec hexec, setErr_status, errByte_eq_zero_iff, verdict_of_expectedFlen hi hlen]
  split_ifs with hflen hhead hpconf hck
  · exact iff_of_false nofun fun ⟨h, _, _⟩ => hflen h
  · exact iff_of_false nofun fun ⟨_, h, _⟩ => h hhead
  · exact iff_of_false nofun fun ⟨_, h, _⟩ => h hhead
  · exact iff_of_false nofun fun ⟨_, _, h⟩ => h hck
  · exact iff_of_true rfl ⟨not_not.1 hflen, hhead, hck⟩

/-! ### The host's reading of the results -/

/-- Settles O32: two's complement by the sign bit's weight, and exact division by 100. -/
theorem physicalReadings : Obligations.PhysicalReadings := by
  unfold Obligations.PhysicalReadings
  intro s
  refine ⟨?_, div_mul_cancel₀ _ (by norm_num), div_mul_cancel₀ _ (by norm_num), rfl⟩
  rw [tempHundredths, BitVec.toInt_eq_toNat_cond]
  split_ifs <;> omega

end Sys2Proof.Machine
end

section
/-! PROOFS. What a step reports and what it keeps: STATUS names the first check that fails, and CMD, STATUS and the
results change in a CMD write or a reset only (60_exceptions.md R66 to R68). -/

namespace Sys2Proof.Machine

open Spec

/-- Settles O10: past the reset, the refusal and the CMD write, each of which a hypothesis excludes, a step is a store
to another address, a read, or a cycle without a strobe. -/
theorem onlyCommandsAndResetChangeResults : Obligations.OnlyCommandsAndResetChangeResults := by
  unfold Obligations.OnlyCommandsAndResetChangeResults
  intro s c rest hhost hrst hboth hcmd
  rw [← currentCycle_cons hhost] at hrst hboth hcmd
  obtain ⟨hr, -⟩ | ⟨-, hwr, hrd, -⟩ | ⟨-, hwr, -, haddr, -⟩ | ⟨-, -, -, -, hstep⟩ | ⟨-, -, -, hstep⟩ |
    ⟨-, -, -, hstep⟩ := step_cases s
  · exact absurd (hr.symm.trans hrst) nofun
  · rw [hwr, hrd] at hboth
    exact absurd hboth nofun
  · exact absurd ⟨hwr, haddr⟩ hcmd
  · obtain ⟨f, n, h0, h1, hstore⟩ := storeReg_keeps (currentCycle s).addr (currentCycle s).wdata (beginCycle s)
    rw [hstore] at hstep
    exact ⟨_, hstep, rfl, rfl, rfl, rfl, rfl, rfl, rfl⟩
  · exact ⟨_, hstep, rfl, rfl, rfl, rfl, rfl, rfl, rfl⟩
  · exact ⟨_, hstep, rfl, rfl, rfl, rfl, rfl, rfl, rfl⟩

section Report

variable {s : State} {v : Byte} {i : Instr} {rest : List BusCycle}

/-- A CMD write reports the verdict on the state before it: storing the byte touches no input of the operation. -/
theorem step_command_status (h : s.host = writeCycle 0x13 v :: rest) (hd : decode v = .ok i) :
    ∃ t, step s = .next t ∧ t.status = 0#5 ++ errBits (verdict i s) := by
  have hagree : AgreeOnInputs i { serving s rest with cmd := v } s :=
    ⟨fun _ => rfl, fun _ => ⟨rfl, rfl⟩, fun _ _ _ => rfl⟩
  rw [← hagree.verdict_eq_of_any]
  exact ⟨_, (step_command h hd).trans (exec_eq i _), rfl⟩

/-- Only CKGEN expects no length; it makes no check (60_exceptions.md R65). -/
theorem verdict_of_expectedFlen_none (h : expectedFlen i = none) (s : State) : verdict i s = .none := by
  cases i with
  | ckgen => rfl
  | _ => cases h

end Report

/-- Settles O36: the byte's operation reports its verdict, whose checks stand in the order of R67. -/
theorem firstFailingCheckIsReported : Obligations.FirstFailingCheckIsReported := by
  classical
  unfold Obligations.FirstFailingCheckIsReported
  intro s v rest h
  cases hd : decode v with
  | error e => exact ⟨_, step_illegal h hd, fun _ => rfl, nofun, nofun⟩
  | ok i =>
    obtain ⟨t, hstep, hstatus⟩ := step_command_status h hd
    refine ⟨t, hstep, nofun, ?_, ?_⟩
    · rintro _ ⟨⟩ hnone
      rw [hstatus, verdict_of_expectedFlen_none hnone]
      rfl
    · rintro _ len ⟨⟩ hlen
      rw [hstatus, verdict_of_expectedFlen (wellFormed_of_decode hd) hlen]
      refine ⟨fun hflen => ?_, fun hflen hhead => ?_, fun hflen hhead hck => ?_, fun hflen hhead hck => ?_⟩
      · rw [if_pos hflen]
        rfl
      · rw [if_neg (not_not.2 hflen), if_pos hhead]
        split <;> rfl
      · rw [if_neg (not_not.2 hflen), if_neg hhead, if_pos hck]
        rfl
      · rw [if_neg (not_not.2 hflen), if_neg hhead, if_neg hck]
        rfl

end Sys2Proof.Machine
end

section
/-! PROOFS. Reset: the step that serves a cycle with rst, and the state it answers (70_reset_and_hazards.md R77). -/

namespace Sys2Proof.Machine

open Spec

/-- A cycle with rst asserted resets the block, whatever strobe stands beside it. -/
theorem step_of_rst {s : State} {c : BusCycle} {rest : List BusCycle} (h : s.host = c :: rest)
    (hrst : c.rst = true) : step s = .next (resetBlock (serving s rest)) := by
  rw [step_eq_busCycle h, busCycle, if_pos hrst]

/-- A reset keeps of the state before it what the host drives next, and no register. -/
theorem resetBlock_serving (s : State) (rest : List BusCycle) :
    resetBlock (serving s rest) = { State.reset with host := rest } := rfl

/-- Settles O1: rst is looked at before the strobes, and the state a reset answers is the reset state with what
the host drives next. -/
theorem resetClearsEveryRegister : Obligations.ResetClearsEveryRegister := by
  unfold Obligations.ResetClearsEveryRegister
  refine ⟨rfl, fun s c rest h hrst _ => ?_⟩
  rw [step_of_rst h hrst, resetBlock_serving]
  rfl

/-- Settles O41: resetting the reset state gives that state again, and every state a reset answers is legal. -/
theorem resetIsLegal : Obligations.ResetIsLegal :=
  legalState_resetBlock State.reset

end Sys2Proof.Machine
end

section
/-! PROOFS. The interface contract: rst with both strobes is a reset, both strobes without it are refused, and a host
that keeps the contract gets a next state from every step (20_memory.md R25, R40; 70_reset_and_hazards.md R77). -/

namespace Sys2Proof.Machine

section Contract

variable {s t : State}

/-- A CMD write consumes no cycle of the host's beyond its own. -/
theorem cmdWrite_host {v : Byte} (h : cmdWrite v s = .next t) : t.host = s.host := by
  obtain ⟨i, -, hw⟩ | ⟨r, -, hw⟩ := cmdWrite_cases v s <;> rw [hw] at h <;> cases h
  · rw [setErr_host, writeback_host, storeCmd_host]
  · rw [setErr_host, storeCmd_host]

/-- A step takes exactly one cycle from what the host drives (20_memory.md R25, R35). -/
theorem step_host (h : step s = .next t) : t.host = s.host.tail := by
  obtain ⟨-, rfl⟩ | ⟨v, -, hcmd⟩ | ⟨f, n, h0, h1, r, rfl⟩ := next_cases h
  · rw [resetBlock_host, beginCycle_host]
  · rw [cmdWrite_host hcmd, beginCycle_host]
  · exact beginCycle_host s

/-- A host within the contract drives such a cycle now: its first one, or no strobe when it drives none. -/
theorem HostWithinContract.withinContract_currentCycle (h : HostWithinContract s) :
    (currentCycle s).withinContract = true := by
  cases hhost : s.host with
  | nil =>
    have hidle : currentCycle s = idleCycle := by rw [currentCycle, hhost, List.headD_nil]
    rw [hidle]
    rfl
  | cons c rest =>
    rw [currentCycle_cons hhost]
    exact h c (hhost ▸ List.mem_cons_self)

/-- Dropping the cycle just served keeps the rest within the contract. -/
theorem HostWithinContract.of_tail (h : HostWithinContract s) (ht : t.host = s.host.tail) :
    HostWithinContract t :=
  fun c hc => h c (List.mem_of_mem_tail (ht ▸ hc))

/-- The refusal of both strobes is the only answer of a step that is not a next state, and the contract excludes it. -/
theorem step_next_of_withinContract (h : (currentCycle s).withinContract = true) :
    ∃ t, step s = .next t := by
  obtain ⟨-, hstep⟩ | ⟨hrst, hwr, hrd, -⟩ | ⟨-, -, -, -, hstep⟩ | ⟨-, -, -, -, hstep⟩ | ⟨-, -, -, hstep⟩ |
    ⟨-, -, -, hstep⟩ := step_cases s
  · exact ⟨_, hstep⟩
  · rw [BusCycle.withinContract, hrst, hwr, hrd] at h
    exact absurd h nofun
  · rw [hstep]
    exact cmdWrite_next _ _
  · exact ⟨_, hstep⟩
  · exact ⟨_, hstep⟩
  · exact ⟨_, hstep⟩

end Contract

/-- Settles O9: the cycle served is within the contract, so the step answers a next state, and the cycles left are
among those the host had to drive. -/
theorem blockNeverStopsUnderTheContract : Obligations.BlockNeverStopsUnderTheContract := by
  unfold Obligations.BlockNeverStopsUnderTheContract
  intro s hs
  obtain ⟨t, hstep⟩ := step_next_of_withinContract hs.withinContract_currentCycle
  have hhost := step_host hstep
  exact ⟨t, hstep, hs.of_tail hhost, hhost⟩

/-- Settles O2: rst is looked at before the strobes. -/
theorem resetWinsOverBothStrobes : Obligations.ResetWinsOverBothStrobes := by
  unfold Obligations.ResetWinsOverBothStrobes
  intro s c rest h hrst _ _
  rw [step_of_rst h hrst, resetBlock_serving]

/-- Settles O7: with rst low the pair of strobes is looked at before the address and the data. -/
theorem bothStrobesAreRefused : Obligations.BothStrobesAreRefused := by
  unfold Obligations.BothStrobesAreRefused
  intro s a v rest h
  rw [step_eq_busCycle h, busCycle, if_neg Bool.false_ne_true, if_pos (Bool.and_self true)]

end Sys2Proof.Machine
end
